-- ==== Sys2Proof/Word.lean ====
section
/-! DEFINITION. The word types of MYPI-CORE: the 32-bit command and response word (30_encoding.md R80, R83), its
24-bit DATA field, and the 7-bit vector of the displays (00_scope.md R8). -/

namespace Sys2Proof

/-- A host command word or a response word (R80, R83). -/
abbrev Word := BitVec 32

/-- The DATA field of a command and the RDATA field of a response: bits 23:0 (R80, R83). -/
abbrev Data := BitVec 24

/-- A 7-bit vector, bit i is element i (R8): a glyph, a matrix column, the seven row lines or the seven column lines. -/
abbrev Pattern := BitVec 7

end Sys2Proof
end

