-- ==== Sys2Proof/Config.lean ====
section
/-! DEFINITION. The configuration record CFG of 00_scope.md R5, with exactly its fields, the reference configuration RC0
of R7 (not normative: it serves tests and shows that a well-formed configuration exists), and the free value that stands
for the levels ENV supplies (43_button_decoder.md R211). Ranges of R6 that are a plain fact about one field are the
field's type (log 3); the other conditions of R6 are Config.wf in Sys2Proof/WellFormed.lean. -/

namespace Sys2Proof

/-- One of the two KeyLines (00_scope.md section 7, 10_state.md R39). -/
inductive Line where
  | l0
  | l1
  deriving DecidableEq, Repr, Inhabited

/-- The closed set of button identifiers (43_button_decoder.md R228). -/
inductive Button where
  | snooze
  | b1
  | b2
  | time
  | volumeDown
  | volumeUp
  | left
  | right
  | power
  deriving DecidableEq, Repr, Inhabited

/-- The tolerance test of a table entry: LT2X or BAND (R5 `TABLE`, R226). -/
inductive Tolerance where
  | lt2x
  | band
  deriving DecidableEq, Repr, Inhabited

/-- Which condition lights the alarm-disabled icon (R5 `ALARM_DISABLED_MODE`, R104). -/
inductive AlarmDisabledMode where
  | notEnabled
  | presentAndNotEnabled
  deriving DecidableEq, Repr, Inhabited

/-- One entry (expected e, button b, kind k) of a classification table (R5 `TABLE`). -/
structure Entry where
  expected : Nat
  button : Button
  kind : Tolerance
  deriving DecidableEq, Repr, Inhabited

/-- The configuration CFG (R5). Fixed before reset; nothing the block does changes it (R336). -/
structure Config where
  /-- `SEG[0..9]` -/
  seg : Vector Pattern 10
  /-- `SEG_BLANK` -/
  segBlank : Pattern
  /-- `COLON_PATTERN` -/
  colonPattern : Pattern
  /-- `ICON_PRESENT_POS` -/
  iconPresentPos : Fin 7
  /-- `ICON_DISABLED_POS` -/
  iconDisabledPos : Fin 7
  /-- `ALARM_DISABLED_MODE` -/
  alarmDisabledMode : AlarmDisabledMode
  /-- `ERR_POS[0..3]` -/
  errPos : Vector (Fin 7) 4
  /-- `MANGLE_UP[0..7]` -/
  mangleUp : Vector (Fin 8) 8
  /-- `MANGLE_DOWN[0..7]` -/
  mangleDown : Vector (Fin 8) 8
  /-- `ROW_ACTIVE` -/
  rowActive : Bool
  /-- `COL_ACTIVE` -/
  colActive : Bool
  /-- `EN_ACTIVE` -/
  enActive : Bool
  /-- `CMD[0..2]` -/
  cmd : Vector (BitVec 12) 3
  /-- `HDR` -/
  hdr : BitVec 9
  /-- `DOTS_OFFSET` -/
  dotsOffset : Fin 41
  /-- `T_SETTLE` -/
  tSettle : Nat
  /-- `T_CLK_LOW` -/
  tClkLow : Nat
  /-- `T_RISE` -/
  tRise : Nat
  /-- `T_GAP` -/
  tGap : Nat
  /-- `T_DEBOUNCE` -/
  tDebounce : Nat
  /-- `T_DISCHARGE` -/
  tDischarge : Nat
  /-- `T_MEASURE_MAX` -/
  tMeasureMax : Nat
  /-- `T_HOLD_MAX` -/
  tHoldMax : Nat
  /-- `DOUBLE_SAMPLE` -/
  doubleSample : Bool
  /-- `HAS_GND_REF` -/
  hasGndRef : Bool
  /-- `TABLE[0]` -/
  table0 : List Entry
  /-- `TABLE[1]` -/
  table1 : List Entry
  /-- `BAND_LO_PCT[0]` -/
  bandLo0 : Nat
  /-- `BAND_HI_PCT[0]` -/
  bandHi0 : Nat
  /-- `BAND_LO_PCT[1]` -/
  bandLo1 : Nat
  /-- `BAND_HI_PCT[1]` -/
  bandHi1 : Nat
  /-- `EVT_DEPTH` -/
  evtDepth : Nat
  /-- `RESET_REFRESH_RATE` -/
  resetRefreshRate : BitVec 18
  /-- `RESET_CEILING_UP` -/
  resetCeilingUp : Bool
  deriving DecidableEq, Repr, Inhabited

/-- `TABLE[l]`. -/
def Config.table (c : Config) : Line → List Entry
  | .l0 => c.table0
  | .l1 => c.table1

/-- `BAND_LO_PCT[l]`. -/
def Config.bandLo (c : Config) : Line → Nat
  | .l0 => c.bandLo0
  | .l1 => c.bandLo1

/-- `BAND_HI_PCT[l]`. -/
def Config.bandHi (c : Config) : Line → Nat
  | .l0 => c.bandHi0
  | .l1 => c.bandHi1

/-- The mangle table that CEILING_UP selects (R5, R109). -/
def Config.mangleTable (c : Config) (up : Bool) : Vector (Fin 8) 8 :=
  if up then c.mangleUp else c.mangleDown

/-- The reference configuration RC0 (R5's last column and R7). NOT NORMATIVE: used by tests, and as the witness that a
well-formed configuration exists; no rule of the model reads it. -/
def Config.rc0 : Config where
  seg := #v[0x3F, 0x06, 0x5B, 0x4F, 0x66, 0x6D, 0x7D, 0x07, 0x7F, 0x6F]
  segBlank := 0x00
  colonPattern := 0x03
  iconPresentPos := 0
  iconDisabledPos := 1
  alarmDisabledMode := .notEnabled
  errPos := #v[0, 1, 2, 3]
  mangleUp := #v[0, 1, 2, 3, 4, 5, 6, 7]
  mangleDown := #v[3, 4, 5, 0, 1, 2, 6, 7]
  rowActive := true
  colActive := true
  enActive := true
  cmd := #v[0xA01, 0xA02, 0xA03]
  hdr := 0x101
  dotsOffset := 17
  tSettle := 10
  tClkLow := 5
  tRise := 10
  tGap := 70
  tDebounce := 2000
  tDischarge := 1000
  tMeasureMax := 3000
  tHoldMax := 3000000
  doubleSample := true
  hasGndRef := false
  table0 := [⟨20, .snooze, .lt2x⟩, ⟨100, .left, .band⟩, ⟨250, .right, .band⟩, ⟨600, .time, .band⟩, ⟨1500, .power, .band⟩]
  table1 := [⟨20, .b1, .lt2x⟩, ⟨100, .b2, .band⟩, ⟨300, .volumeDown, .band⟩, ⟨900, .volumeUp, .band⟩]
  bandLo0 := 70
  bandHi0 := 140
  bandLo1 := 80
  bandHi1 := 120
  evtDepth := 8
  resetRefreshRate := 100
  resetCeilingUp := false

/-- FREE VALUE (log 4): the level ENV supplies on a key line at a boundary for which the state lists none (R211: "The
levels are free inputs of the step"). No body: nothing can be proved about it. -/
opaque Config.freeLevel : Nat → Line → Bool

end Sys2Proof
end

