-- ==== Sys2Proof/Machine/Classify.lean ====
section
/-! DEFINITION. Classification of a sample (43_button_decoder.md section 3): R226 `matches`, R227 `lookup`, R228 the
button codes, R219 `combine`. Pure functions of the configuration; Config.wf (R6) reads them too. -/

namespace Sys2Proof.Machine

/-- R226 `matches(entry, l, s)`: exact comparisons on naturals; LT2X is strict, BAND includes both ends. -/
def entryMatches (c : Config) (l : Line) (e : Entry) (s : Nat) : Bool :=
  match e.kind with
  | .lt2x => decide (s < 2 * e.expected)
  | .band => decide (c.bandLo l * e.expected ≤ 100 * s) && decide (100 * s ≤ c.bandHi l * e.expected)

/-- R227 `lookup(T, l, s)`: the button of the first entry, in table order, that matches, or none. -/
def lookupButton (c : Config) (l : Line) (s : Nat) : List Entry → Option Button
  | [] => none
  | e :: rest => if entryMatches c l e s then some e.button else lookupButton c l s rest

/-- R228: the code of a button as stored in the FIFO and returned by RD EVENT. -/
def buttonCode : Button → BitVec 4
  | .snooze => 0
  | .b1 => 1
  | .b2 => 2
  | .time => 3
  | .volumeDown => 4
  | .volumeUp => 5
  | .left => 6
  | .right => 7
  | .power => 8

/-- R219 `combine(s1, s2)`: the average, rounded down, when both passes gave a sample; the one sample there is when only
one did; the first pass alone when CFG.DOUBLE_SAMPLE is false. -/
def combineSamples (c : Config) (s1 s2 : Option Nat) : Option Nat :=
  if c.doubleSample then
    match s1, s2 with
    | some a, some b => some ((a + b) / 2)
    | some a, none => some a
    | none, some b => some b
    | none, none => none
  else s1

end Sys2Proof.Machine
end

