-- ==== Sys2Proof/Syntax.lean ====
section
/-! DEFINITION. The host commands: one constructor per row of spec/opcode_table.json (30_encoding.md R85). A read has no
operand (its DATA is ignored, R84); a write carries the whole 24-bit DATA as its operand d (R84). Beside them, the causes
for which a word or a command is rejected (60_exceptions.md R301). -/

namespace Sys2Proof

/-- The 23 host commands (R85). -/
inductive Instr where
  | rdHours
  | rdMinutes
  | rdHasAlarm
  | rdAlarmEnabled
  | rdError
  | rdRegularDim
  | rdCeilingDim
  | rdRefreshRate
  | rdCeilingUp
  | rdStatus
  | rdEvent
  | rdLastSample
  | rdPressDuration
  | wrHours (d : Data)
  | wrMinutes (d : Data)
  | wrHasAlarm (d : Data)
  | wrAlarmEnabled (d : Data)
  | wrError (d : Data)
  | wrRegularDim (d : Data)
  | wrCeilingDim (d : Data)
  | wrRefreshRate (d : Data)
  | wrCeilingUp (d : Data)
  | wrStatus (d : Data)
  deriving DecidableEq, Repr

/-- The causes of a rejection (R301). -/
inductive Cause where
  /-- cause 1, RSV_BITS: bits 30:28 of the word are not all 0 -/
  | rsvBits
  /-- cause 2, BAD_ADDR: a read or write of address 0xD, 0xE or 0xF -/
  | badAddr
  /-- cause 3, RO_WRITE: a write of EVENT, LAST_SAMPLE or PRESS_DURATION -/
  | roWrite
  /-- cause 4, BAD_VALUE: the data is no legal write value of the register -/
  | badValue
  deriving DecidableEq, Repr

/-- What the decoder makes of a word (R82): a command, or a rejection with its cause. -/
inductive Decoded where
  | cmd (i : Instr)
  | reject (c : Cause)
  deriving DecidableEq, Repr

end Sys2Proof
end

