-- ==== Sys2Proof/WellFormed.lean ====
section
/-! DEFINITION. Well-formedness. Of the configuration: 00_scope.md R6, one named check per clause (the clauses that are a
bound on one field are the field's type, log 3), and Config.chip, the configuration the block was built with: some
well-formed one, nothing more is known of it (log 2). Of an instruction: every term of Instr is well formed, because a
write's operand is typed as the 24 bits the encoding admits (30_encoding.md R84); a value outside a register's legal
range is a well-formed command that the block rejects (44_host_interface.md R260), so it is no matter of this file. -/

namespace Sys2Proof

/-- R6: `ICON_PRESENT_POS` differs from `ICON_DISABLED_POS`, and the four `ERR_POS` entries are distinct. -/
def Config.wfIcons (c : Config) : Bool :=
  decide (c.iconPresentPos ≠ c.iconDisabledPos) && decide (c.errPos.toList.Nodup)

/-- R6: `T_SETTLE` >= 1 and 1 <= `T_CLK_LOW` < `T_RISE` < `T_GAP`. -/
def Config.wfWire (c : Config) : Bool :=
  decide (1 ≤ c.tSettle) && decide (1 ≤ c.tClkLow) && decide (c.tClkLow < c.tRise) && decide (c.tRise < c.tGap)

/-- R6: `T_DEBOUNCE` >= 1, `T_DISCHARGE` >= 1, 1 <= `T_MEASURE_MAX` <= 1048575, 1 <= `T_HOLD_MAX` <= 8388607. -/
def Config.wfTimes (c : Config) : Bool :=
  decide (1 ≤ c.tDebounce) && decide (1 ≤ c.tDischarge) && decide (1 ≤ c.tMeasureMax) &&
    decide (c.tMeasureMax ≤ 1048575) && decide (1 ≤ c.tHoldMax) && decide (c.tHoldMax ≤ 8388607)

/-- R6: every expected value e of line l's table satisfies 1 <= e <= `T_MEASURE_MAX`. -/
def Config.wfExpected (c : Config) (l : Line) : Bool :=
  (c.table l).all fun e => decide (1 ≤ e.expected) && decide (e.expected ≤ c.tMeasureMax)

/-- R6: `BAND_LO_PCT[l]` <= 100 <= `BAND_HI_PCT[l]`. -/
def Config.wfBand (c : Config) (l : Line) : Bool :=
  decide (c.bandLo l ≤ 100) && decide (100 ≤ c.bandHi l)

/-- R6: for every entry of line l's table, no earlier entry matches its expected value under R226; `earlier` holds the
entries already passed. -/
def Config.wfOrder (c : Config) (l : Line) : List Entry → List Entry → Bool
  | _, [] => true
  | earlier, e :: rest =>
    (earlier.all fun j => !Machine.entryMatches c l j e.expected) && Config.wfOrder c l (earlier ++ [e]) rest

/-- R6: `EVT_DEPTH` is in 1..15 and `RESET_REFRESH_RATE` is in 1..142857. -/
def Config.wfLimits (c : Config) : Bool :=
  decide (1 ≤ c.evtDepth) && decide (c.evtDepth ≤ 15) && decide (1 ≤ c.resetRefreshRate.toNat) &&
    decide (c.resetRefreshRate.toNat ≤ 142857)

/-- R6, the whole of it. -/
def Config.wf (c : Config) : Bool :=
  c.wfIcons && c.wfWire && c.wfTimes && c.wfLimits &&
    (c.wfExpected .l0 && c.wfBand .l0 && Config.wfOrder c .l0 [] c.table0) &&
    (c.wfExpected .l1 && c.wfBand .l1 && Config.wfOrder c .l1 [] c.table1)

/-- A configuration together with the proof that it meets R6: an ill-formed one cannot be built. -/
structure WfConfig where
  cfg : Config := Config.rc0
  ok : cfg.wf = true := by decide
  deriving Inhabited

/-- The configuration of the block at hand (R5, R336; log 2). No body: it is SOME well-formed configuration, and nothing
else can be proved about it. State.reset starts from it. -/
opaque Config.chip : WfConfig

end Sys2Proof
end

