-- ==== Sys2Proof/Decode.lean ====
section
/-! DEFINITION. The decoder of 30_encoding.md R82, total on every 32-bit word, rejecting by cause, and after it the
encoder, written from the same format HC (R80) and the opcode map of R85. -/

namespace Sys2Proof

/-- R80: bit 31, OP (0 = read, 1 = write). -/
def fieldOp (w : Word) : Bool := w.getLsbD 31

/-- R80: bits 30:28, RSV. -/
def fieldRsv (w : Word) : BitVec 3 := w.extractLsb' 28 3

/-- R80: bits 27:24, ADDR. -/
def fieldAddr (w : Word) : BitVec 4 := w.extractLsb' 24 4

/-- R80, R84: bits 23:0, DATA, a 24-bit natural. -/
def fieldData (w : Word) : Data := w.extractLsb' 0 24

/-- R82, the read half: addresses 0x0 to 0xC are mapped, the others are cause 2. -/
def decodeRead (a : BitVec 4) : Decoded :=
  match a.toNat with
  | 0 => .cmd .rdHours
  | 1 => .cmd .rdMinutes
  | 2 => .cmd .rdHasAlarm
  | 3 => .cmd .rdAlarmEnabled
  | 4 => .cmd .rdError
  | 5 => .cmd .rdRegularDim
  | 6 => .cmd .rdCeilingDim
  | 7 => .cmd .rdRefreshRate
  | 8 => .cmd .rdCeilingUp
  | 9 => .cmd .rdStatus
  | 10 => .cmd .rdEvent
  | 11 => .cmd .rdLastSample
  | 12 => .cmd .rdPressDuration
  | _ => .reject .badAddr

/-- R82, the write half: addresses 0x0 to 0x9 are writable, 0xA to 0xC are cause 3, the others are cause 2. -/
def decodeWrite (a : BitVec 4) (d : Data) : Decoded :=
  match a.toNat with
  | 0 => .cmd (.wrHours d)
  | 1 => .cmd (.wrMinutes d)
  | 2 => .cmd (.wrHasAlarm d)
  | 3 => .cmd (.wrAlarmEnabled d)
  | 4 => .cmd (.wrError d)
  | 5 => .cmd (.wrRegularDim d)
  | 6 => .cmd (.wrCeilingDim d)
  | 7 => .cmd (.wrRefreshRate d)
  | 8 => .cmd (.wrCeilingUp d)
  | 9 => .cmd (.wrStatus d)
  | 10 => .reject .roWrite
  | 11 => .reject .roWrite
  | 12 => .reject .roWrite
  | _ => .reject .badAddr

/-- R82: decoding, total on every word; the tests stand in the order of R302. -/
def decode (w : Word) : Decoded :=
  if fieldRsv w ≠ 0 then .reject .rsvBits
  else if fieldOp w then decodeWrite (fieldAddr w) (fieldData w)
  else decodeRead (fieldAddr w)

/-- The instruction the decoder reads from a word whose bits, numbered as spec/opcode_table.json numbers them, are w: the
host port takes whole 32-bit words with bit 0 the least significant (R62, R80), so no byte order enters (log 20). -/
def decodeTableWord (nbits w : Nat) : Option Instr :=
  match decode (BitVec.ofNat 32 (w % 2 ^ nbits)) with
  | .cmd i => some i
  | .reject _ => none

/-- R80: a word of format HC with RSV = 0. -/
def hcWord (op : Bool) (addr : BitVec 4) (d : Data) : Word :=
  BitVec.ofBool op ++ 0#3 ++ addr ++ d

/-- The encoder (R85, R87): a read has DATA 0, a write carries its operand. -/
def encode : Instr → Word
  | .rdHours => hcWord false 0x0 0
  | .rdMinutes => hcWord false 0x1 0
  | .rdHasAlarm => hcWord false 0x2 0
  | .rdAlarmEnabled => hcWord false 0x3 0
  | .rdError => hcWord false 0x4 0
  | .rdRegularDim => hcWord false 0x5 0
  | .rdCeilingDim => hcWord false 0x6 0
  | .rdRefreshRate => hcWord false 0x7 0
  | .rdCeilingUp => hcWord false 0x8 0
  | .rdStatus => hcWord false 0x9 0
  | .rdEvent => hcWord false 0xA 0
  | .rdLastSample => hcWord false 0xB 0
  | .rdPressDuration => hcWord false 0xC 0
  | .wrHours d => hcWord true 0x0 d
  | .wrMinutes d => hcWord true 0x1 d
  | .wrHasAlarm d => hcWord true 0x2 d
  | .wrAlarmEnabled d => hcWord true 0x3 d
  | .wrError d => hcWord true 0x4 d
  | .wrRegularDim d => hcWord true 0x5 d
  | .wrCeilingDim d => hcWord true 0x6 d
  | .wrRefreshRate d => hcWord true 0x7 d
  | .wrCeilingUp d => hcWord true 0x8 d
  | .wrStatus d => hcWord true 0x9 d

/-- The opcode map of R85, row by row: the `match` word (every mask is 0xFF000000) and the command it selects, given DATA. -/
def opcodeMap : List (Word × (Data → Instr)) :=
  [(0x00000000, fun _ => .rdHours), (0x01000000, fun _ => .rdMinutes), (0x02000000, fun _ => .rdHasAlarm),
    (0x03000000, fun _ => .rdAlarmEnabled), (0x04000000, fun _ => .rdError), (0x05000000, fun _ => .rdRegularDim),
    (0x06000000, fun _ => .rdCeilingDim), (0x07000000, fun _ => .rdRefreshRate), (0x08000000, fun _ => .rdCeilingUp),
    (0x09000000, fun _ => .rdStatus), (0x0A000000, fun _ => .rdEvent), (0x0B000000, fun _ => .rdLastSample),
    (0x0C000000, fun _ => .rdPressDuration)] ++
  [(0x80000000, .wrHours), (0x81000000, .wrMinutes), (0x82000000, .wrHasAlarm), (0x83000000, .wrAlarmEnabled),
    (0x84000000, .wrError), (0x85000000, .wrRegularDim), (0x86000000, .wrCeilingDim), (0x87000000, .wrRefreshRate),
    (0x88000000, .wrCeilingUp), (0x89000000, .wrStatus)]

end Sys2Proof
end

