-- ==== Sys2Proof/Machine/State.lean ====
section
/-! DEFINITION. The state of the block, as plain data: 10_state.md R21 to R46, each unit's state with the output lines only
that unit drives, and beside it the model's own record of the inputs and of the responses (World). Register values and
bits that software sees are bit vectors of the spec's width; counters, which the spec gives as naturals, are Nat. -/

namespace Sys2Proof.Machine

/-- The Clock State registers, addresses 0x0 to 0x8 (R21 to R29). -/
structure Clock where
  hours : BitVec 7
  minutes : BitVec 7
  hasAlarm : Bool
  alarmEnabled : Bool
  error : BitVec 8
  regularDim : BitVec 7
  ceilingDim : BitVec 7
  refreshRate : BitVec 18
  ceilingUp : Bool
  deriving DecidableEq, Repr

/-- The stored fields of STATUS (R30); EVT_NONEMPTY and EVT_COUNT are views of the FIFO (log 10). -/
structure Status where
  badcmd : Bool
  evtOvf : Bool
  noMatch : Bool
  noSample : Bool
  cause : BitVec 4
  deriving DecidableEq, Repr

/-- An entry of the event FIFO (R34). The button is held by name; its code is R228's buttonCode. -/
structure Event where
  button : Button
  line : Line
  deriving DecidableEq, Repr

/-- MX's phases (R42, R141). -/
inductive MxPhase where
  | start
  | col (c : Fin 7)
  | pause
  deriving DecidableEq, Repr

/-- The matrix scanner: its sequencer, its cycle snapshot (R42) and the 14 lines it drives, at electrical level (R37). -/
structure Mx where
  phase : MxPhase
  rem : Nat
  pat : Vector Pattern 7
  colOn : Nat
  pause : Nat
  row : Pattern
  col : Pattern
  deriving DecidableEq, Repr

/-- SR's phases (R43, R174): s is the sequence, i the bit within it. -/
inductive SrPhase where
  | start
  | latchLow (s : Fin 4)
  | clkLow (s : Fin 4) (i : Nat)
  | clkHigh (s : Fin 4) (i : Nat)
  | gap (s : Fin 4)
  | idle
  deriving DecidableEq, Repr

/-- The ceiling serializer: its sequencer, its transmission snapshot (R43) and the three lines it drives (R38). A bit
sequence is a list in transmission order (R8). -/
structure Sr where
  phase : SrPhase
  rem : Nat
  seq : Vector (List Bool) 4
  idle : Nat
  data : Bool
  latchLine : Bool
  clkLine : Bool
  dataLine : Bool
  deriving DecidableEq, Repr

/-- PW's phases (R44). -/
inductive PwPhase where
  | start
  | high
  | low
  deriving DecidableEq, Repr

/-- The enable-line generator (R44) and CEIL_EN, at electrical level (R38). -/
structure Pw where
  phase : PwPhase
  rem : Nat
  low : Nat
  enLine : Bool
  deriving DecidableEq, Repr

/-- BD's phases (R45). -/
inductive BdPhase where
  | idle
  | debounce
  | dis1
  | meas1
  | dis2
  | meas2
  | hold
  | disf
  deriving DecidableEq, Repr

/-- The modes of a key pin (R39). -/
inductive PinMode where
  | outLow
  | inFloat
  | inPulldown
  | inPulldownIrq
  deriving DecidableEq, Repr

/-- The button decoder (R45) and the pin modes it sets: KEY[0], KEY[1] (R39) and GND_REF where it exists (R40). -/
structure Bd where
  phase : BdPhase
  line : Line
  rem : Nat
  cnt : Nat
  s1 : Option Nat
  s2 : Option Nat
  key0 : PinMode
  key1 : PinMode
  gndRef : Option PinMode
  deriving DecidableEq, Repr

/-- The edge detector of one KeyLine (R46). -/
structure Edge where
  pending : Bool
  prev : Bool
  armedPrev : Bool
  deriving DecidableEq, Repr

/-- The two key levels ENV supplies at one boundary (R211). -/
structure Levels where
  l0 : Bool
  l1 : Bool
  deriving DecidableEq, Repr

/-- The world around the block, as the MODEL records it; none of it is state of the block (R47). -/
structure World where
  /-- the number of the boundary about to happen -/
  now : Nat
  /-- the host's commands not yet executed: (boundary, word) pairs (R81), in issue order (log 5) -/
  cmds : List (Nat × Word)
  /-- key levels by boundary; at a boundary not listed they are the free value (R211, log 4) -/
  levels : List (Nat × Levels)
  /-- the boundaries at which RESET is asserted (R330, log 7) -/
  resets : List Nat
  /-- the responses given, each with its boundary, newest first (R83, log 8) -/
  responses : List (Nat × Word)
  deriving DecidableEq, Repr

/-- The machine. cfg is the configuration, which no step changes (R336, log 1). -/
structure State where
  cfg : Config
  clock : Clock
  status : Status
  lastSample : Data
  pressDuration : Data
  fifo : List Event
  mx : Mx
  sr : Sr
  pw : Pw
  bd : Bd
  edge0 : Edge
  edge1 : Edge
  world : World
  deriving DecidableEq, Repr

/-- Why the machine stops. The block itself has no fault (R303); each reason names a unit whose zero-length phases never
end at one boundary, which R144, R175 and R187 exclude in every state the block reaches (log 9). SAFE: the model stops
where the pseudocode's loop would not end. -/
inductive Fault where
  /-- raised by tick: MX's loop of R145 does not end. SAFE. -/
  | mxNeverSettles
  /-- raised by tick: SR's loop of R176 does not end. SAFE. -/
  | srNeverSettles
  /-- raised by tick: PW's loop of R187 does not end. SAFE. -/
  | pwNeverSettles
  deriving DecidableEq, Repr

/-- Why the model gives no meaning. -/
inductive Refusal where
  /-- raised by an arm of exec for a command that has no meaning yet. SAFE: the model stops. -/
  | notModelled (mnemonic : String)
  /-- raised by State.start: the configuration breaks 00_scope.md R6, so the model does not start (R336). SAFE. -/
  | illFormedConfig
  deriving DecidableEq, Repr

/-- R332: MX at reset, its lines inactive (R37, R147). -/
def Mx.reset (c : Config) : Mx where
  phase := .start
  rem := 0
  pat := #v[0, 0, 0, 0, 0, 0, 0]
  colOn := 0
  pause := 0
  row := if c.rowActive then 0x00 else 0x7F
  col := if c.colActive then 0x00 else 0x7F

/-- R332: SR at reset; CEIL_LATCH = 1, CEIL_CLK = 1, CEIL_DATA = 0 (R38). DESIGN CHOICE (log 21): `sr_idle` is 0, where R43 says
only that the snapshot is empty. -/
def Sr.reset : Sr where
  phase := .start
  rem := 0
  seq := #v[[], [], [], []]
  idle := 0
  data := false
  latchLine := true
  clkLine := true
  dataLine := false

/-- R332: PW at reset, CEIL_EN inactive (R38). -/
def Pw.reset (c : Config) : Pw where
  phase := .start
  rem := 0
  low := 0
  enLine := !c.enActive

/-- R332: BD at reset; both key pins IN_PULLDOWN (R39), GND_REF OUT_LOW where it exists (R40). -/
def Bd.reset (c : Config) : Bd where
  phase := .idle
  line := .l0
  rem := 0
  cnt := 0
  s1 := none
  s2 := none
  key0 := .inPulldown
  key1 := .inPulldown
  gndRef := if c.hasGndRef then some .outLow else none

/-- R332: the Clock State at reset. -/
def Clock.reset (c : Config) : Clock where
  hours := 88
  minutes := 88
  hasAlarm := false
  alarmEnabled := false
  error := 0
  regularDim := 50
  ceilingDim := 50
  refreshRate := c.resetRefreshRate
  ceilingUp := c.resetCeilingUp

/-- The machine of configuration c right after reset: R332, every field. Nothing is known yet of the inputs (log 12). -/
def State.resetWith (c : Config) : State where
  cfg := c
  clock := Clock.reset c
  status := ⟨false, false, false, false, 0⟩
  lastSample := 0
  pressDuration := 0
  fifo := []
  mx := Mx.reset c
  sr := Sr.reset
  pw := Pw.reset c
  bd := Bd.reset c
  edge0 := ⟨false, false, false⟩
  edge1 := ⟨false, false, false⟩
  world := ⟨0, [], [], [], []⟩

/-- The machine right after reset, for the configuration it was built with (log 2). -/
def State.reset : State := State.resetWith Config.chip.cfg

end Sys2Proof.Machine
end

