-- ==== Sys2Proof/Machine/Flags.lean ====
section
/-! DEFINITION. The flags of the block: the fields of STATUS (10_state.md R30), the packed diagnostic registers (R31, R32)
and the interrupt line EVT_IRQ (R41). -/

namespace Sys2Proof.Machine

/-- R301: the code a cause is recorded as. -/
def causeCode : Cause → BitVec 4
  | .rsvBits => 1
  | .badAddr => 2
  | .roWrite => 3
  | .badValue => 4

/-- R300: BADCMD set, and BADCMD_CAUSE with it unless BADCMD was set already. -/
def Status.noteReject (st : Status) (c : Cause) : Status :=
  { st with badcmd := true, cause := if st.badcmd then st.cause else causeCode c }

/-- R30, R283: write-1-to-clear of bits 3:0 by the data d; clearing BADCMD also clears BADCMD_CAUSE. -/
def Status.clearBits (st : Status) (d : Data) : Status where
  badcmd := st.badcmd && !d.getLsbD 0
  evtOvf := st.evtOvf && !d.getLsbD 1
  noMatch := st.noMatch && !d.getLsbD 2
  noSample := st.noSample && !d.getLsbD 3
  cause := if d.getLsbD 0 then 0 else st.cause

/-- One flag at bit position p of a 24-bit register value. -/
def flagBit (p : Nat) (b : Bool) : Data :=
  if b then 1#24 <<< p else 0

/-- R270: the value RD STATUS returns, from the stored fields and the FIFO count. -/
def statusWord (st : Status) (count : Nat) : Data :=
  flagBit 0 st.badcmd ||| flagBit 1 st.evtOvf ||| flagBit 2 st.noMatch ||| flagBit 3 st.noSample |||
    flagBit 4 (decide (0 < count)) ||| (BitVec.ofNat 24 count <<< 8) ||| (st.cause.setWidth 24 <<< 12)

/-- The LINE bit of a KeyLine (R31, R33). -/
def lineBit : Line → Bool
  | .l0 => false
  | .l1 => true

/-- R31: LAST_SAMPLE from its fields; SAMPLE fits its 20 bits in every well-formed configuration (log 13). -/
def packLastSample (matched : Bool) (l : Line) (valid : Bool) (sample : Nat) : Data :=
  (BitVec.ofNat 20 sample).setWidth 24 ||| flagBit 20 valid ||| flagBit 21 (lineBit l) ||| flagBit 22 matched

/-- R32: PRESS_DURATION from its fields; DURATION fits its 23 bits in every well-formed configuration (log 13). -/
def packPressDuration (timeout : Bool) (duration : Nat) : Data :=
  (BitVec.ofNat 23 duration).setWidth 24 ||| flagBit 23 timeout

/-- R33, R271: the value RD EVENT returns for an entry: CODE, VALID = 1, LINE. -/
def packEvent (e : Event) (code : BitVec 4) : Data :=
  code.setWidth 24 ||| flagBit 4 true ||| flagBit 5 (lineBit e.line)

/-- R41, R307: EVT_IRQ, 1 exactly when the event FIFO is non-empty. -/
def State.evtIrq (s : State) : Bool := !s.fifo.isEmpty

end Sys2Proof.Machine
end

