-- ==== Sys2Proof/Machine/Operands.lean ====
section
/-! DEFINITION. The one operand form of the command set: DATA as a 24-bit natural (30_encoding.md R84), its legality for
each writable register ("legal write values", 10_state.md section 2), and the registers a read names. -/

namespace Sys2Proof.Machine

/-- DATA is at most `hi` (R274 to R280, R282): legality depends on the whole 24-bit value. -/
def dataAtMost (hi : Nat) (d : Data) : Bool := decide (d.toNat ≤ hi)

/-- DATA is a legal REFRESH_RATE: 1..142857 (R281). -/
def dataIsRate (d : Data) : Bool := decide (1 ≤ d.toNat) && decide (d.toNat ≤ 142857)

/-- DATA is legal for STATUS: bits 23:4 are zero (R283). -/
def dataIsStatusClear (d : Data) : Bool := d.extractLsb' 4 20 == 0

/-- DATA as a one-bit register value, for legal d (R276, R277, R282). -/
def dataBit (d : Data) : Bool := d.getLsbD 0

/-- The thirteen mapped registers (10_state.md section 2). -/
inductive Reg where
  | hours
  | minutes
  | hasAlarm
  | alarmEnabled
  | error
  | regularDim
  | ceilingDim
  | refreshRate
  | ceilingUp
  | status
  | event
  | lastSample
  | pressDuration
  deriving DecidableEq, Repr

/-- The address of a register (10_state.md section 2, 20_memory.md R60). -/
def Reg.addr : Reg → BitVec 4
  | .hours => 0x0
  | .minutes => 0x1
  | .hasAlarm => 0x2
  | .alarmEnabled => 0x3
  | .error => 0x4
  | .regularDim => 0x5
  | .ceilingDim => 0x6
  | .refreshRate => 0x7
  | .ceilingUp => 0x8
  | .status => 0x9
  | .event => 0xA
  | .lastSample => 0xB
  | .pressDuration => 0xC

end Sys2Proof.Machine
end

