-- ==== Sys2Proof/Machine/Ops.lean ====
section
/-! DEFINITION. The named operations over the state: one setter per part, the response of a command (30_encoding.md R83),
reading a register, the rejection of a command (60_exceptions.md R300: the block's only synchronous exception, R309; there
is no return from it, R310), the event FIFO (R33, R229), the inputs (R81, R211), and the release from reset (R330). -/

namespace Sys2Proof.Machine

/-! ### Setters -/

def State.setClock (s : State) (v : Clock) : State := { s with clock := v }
def State.setStatus (s : State) (v : Status) : State := { s with status := v }
def State.setLastSample (s : State) (v : Data) : State := { s with lastSample := v }
def State.setPressDuration (s : State) (v : Data) : State := { s with pressDuration := v }
def State.setFifo (s : State) (v : List Event) : State := { s with fifo := v }
def State.setMx (s : State) (v : Mx) : State := { s with mx := v }
def State.setSr (s : State) (v : Sr) : State := { s with sr := v }
def State.setPw (s : State) (v : Pw) : State := { s with pw := v }
def State.setBd (s : State) (v : Bd) : State := { s with bd := v }
def State.setEdges (s : State) (v0 v1 : Edge) : State := { s with edge0 := v0, edge1 := v1 }
def State.setWorld (s : State) (v : World) : State := { s with world := v }

/-! ### Edge detectors by line -/

/-- The edge detector of KeyLine l. -/
def State.edge (s : State) : Line → Edge
  | .l0 => s.edge0
  | .l1 => s.edge1

/-- Write the edge detector of KeyLine l. -/
def State.setEdge (s : State) (l : Line) (e : Edge) : State :=
  match l with
  | .l0 => s.setEdges e s.edge1
  | .l1 => s.setEdges s.edge0 e

/-! ### The response of a command -/

/-- R83, 44_host_interface.md `resp(ack, v)`: bit 31 ACK, bits 30:24 zero, bits 23:0 RDATA. -/
def respWord (ack : Bool) (v : Data) : Word := BitVec.ofBool ack ++ 0#7 ++ v

/-- Answer a command at the boundary it is issued at (R83). -/
def State.respond (s : State) (ack : Bool) (v : Data) : State :=
  s.setWorld { s.world with responses := (s.world.now, respWord ack v) :: s.world.responses }

/-- R300 `reject(c)`: BADCMD set, BADCMD_CAUSE the first cause since the last clear, response 0, nothing else. -/
def State.reject (s : State) (c : Cause) : State :=
  (s.setStatus (s.status.noteReject c)).respond false 0

/-! ### Registers -/

/-- R33, R271: what the EVENT port shows, the head of the FIFO or 0. -/
def State.eventPort (s : State) : Data :=
  match s.fifo with
  | [] => 0
  | e :: _ => packEvent e (buttonCode e.button)

/-- The RDATA of a read of a register (R261 to R273), zero above the register's width (R35). -/
def State.regValue (s : State) : Reg → Data
  | .hours => s.clock.hours.setWidth 24
  | .minutes => s.clock.minutes.setWidth 24
  | .hasAlarm => flagBit 0 s.clock.hasAlarm
  | .alarmEnabled => flagBit 0 s.clock.alarmEnabled
  | .error => s.clock.error.setWidth 24
  | .regularDim => s.clock.regularDim.setWidth 24
  | .ceilingDim => s.clock.ceilingDim.setWidth 24
  | .refreshRate => s.clock.refreshRate.setWidth 24
  | .ceilingUp => flagBit 0 s.clock.ceilingUp
  | .status => statusWord s.status s.fifo.length
  | .event => s.eventPort
  | .lastSample => s.lastSample
  | .pressDuration => s.pressDuration

/-- A read (R260): answer the register's value. -/
def State.readReg (s : State) (r : Reg) : State := s.respond true (s.regValue r)

/-- R271: remove the head of the FIFO; an empty FIFO stays empty. -/
def State.popEvent (s : State) : State := s.setFifo s.fifo.tail

/-- A write of a Clock State register (R260): stored and acknowledged where the data is legal, rejected with cause 4 where
it is not. -/
def State.writeClock (s : State) (legal : Bool) (v : Clock) : State :=
  if legal then (s.setClock v).respond true 0 else s.reject .badValue

/-- R283: a write of STATUS clears the sticky bits its data names, or is rejected with cause 4. -/
def State.writeStatus (s : State) (d : Data) : State :=
  if dataIsStatusClear d then (s.setStatus (s.status.clearBits d)).respond true 0 else s.reject .badValue

/-- R229 `push_event(b, l)`: append at the tail, or set EVT_OVF and drop the new event. -/
def State.pushEvent (s : State) (b : Button) (l : Line) : State :=
  if s.fifo.length < s.cfg.evtDepth then s.setFifo (s.fifo ++ [⟨b, l⟩])
  else s.setStatus { s.status with evtOvf := true }

/-! ### Inputs -/

/-- The next command issued at boundary k, in issue order, and the commands left (R67 step (1), R81). -/
def takeCmd (k : Nat) : List (Nat × Word) → Option (Word × List (Nat × Word))
  | [] => none
  | (b, w) :: rest =>
    if b = k then some (w, rest)
    else
      match takeCmd k rest with
      | some (w', rest') => some (w', (b, w) :: rest')
      | none => none

/-- The next command of the current boundary. -/
def State.nextCmd (s : State) : Option (Word × List (Nat × Word)) := takeCmd s.world.now s.world.cmds

/-- The state with the commands still to come being cs. -/
def State.setCmds (s : State) (cs : List (Nat × Word)) : State := s.setWorld { s.world with cmds := cs }

/-- RESET is asserted at the current boundary (R330). -/
def State.resetAsserted (s : State) : Bool := s.world.resets.contains s.world.now

/-- R211: `lvl[l](k)` at the current boundary: the level listed for it, or the free value (log 4). -/
def State.level (s : State) (l : Line) : Bool :=
  match s.world.levels.lookup s.world.now with
  | some v => match l with
    | .l0 => v.l0
    | .l1 => v.l1
  | none => Config.freeLevel s.world.now l

/-- The boundary is over: the next step is at the next one (R11). -/
def State.nextBoundary (s : State) : State := s.setWorld { s.world with now := s.world.now + 1 }

/-! ### Reset -/

/-- R330: a boundary at which RESET is asserted; every piece of state takes its reset value, no command is accepted or
answered and the levels are ignored. The configuration and the record of the world go on (log 7). -/
def State.resetBoundary (s : State) : State :=
  ((State.resetWith s.cfg).setWorld s.world).nextBoundary

/-- R6, R336: the check before the model starts; an ill-formed configuration is refused. -/
def State.start (c : Config) : Host.Outcome State Fault Refusal :=
  if c.wf then .next (State.resetWith c) else .refused .illFormedConfig

end Sys2Proof.Machine
end

