-- ==== Sys2Proof/Machine/Buttons.lean ====
section
/-! DEFINITION. BD, the button decoder, and the edge detectors (43_button_decoder.md R210 to R225, R229). Every function is
named for the rule's pseudocode; L of the rules is s.bd.line. -/

namespace Sys2Proof.Machine

/-! ### Edge detectors -/

/-- R213 for one line: an edge is a low level at the previous boundary and a high level now, the pin armed in between. -/
def Edge.sample (e : Edge) (lvl : Bool) : Edge :=
  { e with pending := e.pending || (e.armedPrev && !e.prev && lvl), prev := lvl }

/-- R213: both edge detectors at step (2) of the boundary. -/
def edgeDetect (s : State) : State :=
  s.setEdges (s.edge0.sample (s.level .l0)) (s.edge1.sample (s.level .l1))

/-! ### Phase rules -/

/-- R214: take line l's pending edge and enter DEBOUNCE. -/
def beginService (s : State) (l : Line) : State :=
  (s.setEdge l { s.edge l with pending := false }).setBd
    { s.bd with line := l, phase := .debounce, rem := s.cfg.tDebounce }

/-- R214 `idle_check()`: line 0 wins a tie. -/
def idleCheck (s : State) : State :=
  if s.edge0.pending then beginService s .l0
  else if s.edge1.pending then beginService s .l1
  else s

/-- R225 `enter_idle()`. -/
def enterIdle (s : State) : State := idleCheck (s.setBd { s.bd with phase := .idle })

/-- R215 `debounce_step(k)`. -/
def debounceStep (s : State) : State :=
  if s.bd.rem - 1 = 0 then
    if s.level s.bd.line then
      s.setBd { s.bd with s1 := none, s2 := none, phase := .dis1, rem := s.cfg.tDischarge }
    else enterIdle (s.setBd { s.bd with rem := s.bd.rem - 1 })
  else s.setBd { s.bd with rem := s.bd.rem - 1 }

/-- R216 `discharge_step(next)`. -/
def dischargeStep (s : State) (next : BdPhase) : State :=
  if s.bd.rem - 1 = 0 then s.setBd { s.bd with rem := s.bd.rem - 1, phase := next, cnt := 0 }
  else s.setBd { s.bd with rem := s.bd.rem - 1 }

/-- R222 `classify()`, for the combined sample. -/
def classifySample (s : State) : Option Nat → State
  | none =>
    (s.setLastSample (packLastSample false s.bd.line false 0)).setStatus { s.status with noSample := true }
  | some v =>
    match lookupButton s.cfg s.bd.line v (s.cfg.table s.bd.line) with
    | some b => (s.setLastSample (packLastSample true s.bd.line true v)).pushEvent b s.bd.line
    | none => (s.setLastSample (packLastSample false s.bd.line true v)).setStatus { s.status with noMatch := true }

/-- R222 `classify()`. -/
def classify (s : State) : State := classifySample s (combineSamples s.cfg s.bd.s1 s.bd.s2)

/-- R217 `enter_hold()`. -/
def enterHold (s : State) : State := s.setBd { s.bd with phase := .hold, cnt := 0 }

/-- R217: the outcome of one poll, count cnt and level lvl: none while the pass goes on, else the pass's sample. -/
def pollSample (c : Config) (cnt : Nat) (lvl : Bool) : Option (Option Nat) :=
  if lvl then some (some cnt)
  else if cnt = c.tMeasureMax then some none
  else none

/-- R217 `end_measure(1)`. -/
def endMeasure1 (s : State) : State :=
  if s.cfg.doubleSample then s.setBd { s.bd with phase := .dis2, rem := s.cfg.tDischarge }
  else enterHold (classify s)

/-- R217 `measure_step(k, 1)`. -/
def measureStep1 (s : State) : State :=
  match pollSample s.cfg (s.bd.cnt + 1) (s.level s.bd.line) with
  | some v => endMeasure1 (s.setBd { s.bd with cnt := s.bd.cnt + 1, s1 := v })
  | none => s.setBd { s.bd with cnt := s.bd.cnt + 1 }

/-- R217 `measure_step(k, 2)`. -/
def measureStep2 (s : State) : State :=
  match pollSample s.cfg (s.bd.cnt + 1) (s.level s.bd.line) with
  | some v => enterHold (classify (s.setBd { s.bd with cnt := s.bd.cnt + 1, s2 := v }))
  | none => s.setBd { s.bd with cnt := s.bd.cnt + 1 }

/-- R223: the release wait ends. -/
def endHold (s : State) (timeout : Bool) : State :=
  (s.setPressDuration (packPressDuration timeout (s.bd.cnt + 1))).setBd
    { s.bd with cnt := s.bd.cnt + 1, phase := .disf, rem := s.cfg.tDischarge }

/-- R223 `hold_step(k)`. -/
def holdStep (s : State) : State :=
  if !s.level s.bd.line then endHold s false
  else if s.bd.cnt + 1 = s.cfg.tHoldMax then endHold s true
  else s.setBd { s.bd with cnt := s.bd.cnt + 1 }

/-- R224 `final_discharge_step()`. -/
def finalDischargeStep (s : State) : State :=
  if s.bd.rem - 1 = 0 then enterIdle (s.setBd { s.bd with rem := s.bd.rem - 1 })
  else s.setBd { s.bd with rem := s.bd.rem - 1 }

/-- R210: the phase's rule. -/
def bdPhaseStep (s : State) : State :=
  match s.bd.phase with
  | .idle => idleCheck s
  | .debounce => debounceStep s
  | .dis1 => dischargeStep s .meas1
  | .meas1 => measureStep1 s
  | .dis2 => dischargeStep s .meas2
  | .meas2 => measureStep2 s
  | .hold => holdStep s
  | .disf => finalDischargeStep s

/-! ### Pin modes -/

/-- R212: the mode of the serviced key pin, KEY[L], in a phase. -/
def servicedMode : BdPhase → PinMode
  | .idle => .inPulldownIrq
  | .debounce => .inPulldown
  | .dis1 => .outLow
  | .meas1 => .inFloat
  | .dis2 => .outLow
  | .meas2 => .inFloat
  | .hold => .inPulldown
  | .disf => .outLow

/-- R212: the mode of KEY[l] for a phase and a serviced line; the other line stays armed. -/
def keyMode (p : BdPhase) (serviced l : Line) : PinMode :=
  if l = serviced then servicedMode p else .inPulldownIrq

/-- R40, R212: GND_REF is OUT_LOW where it exists. -/
def gndRefMode (c : Config) : Option PinMode := if c.hasGndRef then some .outLow else none

/-- R210: armed_prev[l] is 1 when KEY[l] is in mode IN_PULLDOWN_IRQ for the tick. -/
def Edge.arm (e : Edge) (m : PinMode) : Edge := { e with armedPrev := decide (m = .inPulldownIrq) }

/-- R210, R212: emit the pin modes for the tick and note which pins are armed. -/
def bdEmit (s : State) : State :=
  let k0 := keyMode s.bd.phase s.bd.line .l0
  let k1 := keyMode s.bd.phase s.bd.line .l1
  (s.setBd { s.bd with key0 := k0, key1 := k1, gndRef := gndRefMode s.cfg }).setEdges (s.edge0.arm k0) (s.edge1.arm k1)

/-- R210 `BD_step(k)`. -/
def bdStep (s : State) : State := bdEmit (bdPhaseStep s)

end Sys2Proof.Machine
end

