-- ==== Sys2Proof/Machine/Bits.lean ====
section
/-! DEFINITION. Bit-level helpers of 00_scope.md R8: a bit list read as a number, the transmission order msb_first_N, one
bit placed in a 7-bit vector, and the electrical level of logical lines (R12). -/

namespace Sys2Proof.Machine

/-- The natural whose bit i is element i of the list (R8). -/
def bitsToNat : List Bool → Nat
  | [] => 0
  | b :: rest => b.toNat + 2 * bitsToNat rest

/-- R8 `msb_first_N(v)`: [v[N-1], ..., v[0]]. -/
def msbFirst {n : Nat} (v : BitVec n) : List Bool :=
  (List.range n).map fun j => v.getLsbD (n - 1 - j)

/-- The 7-bit vector whose bit p is b and whose other bits are 0. -/
def bitAt (p : Fin 7) (b : Bool) : Pattern :=
  if b then 1#7 <<< p.val else 0

/-- R12: the electrical levels of seven lines, of which those set in `on` are active and `active` is the active level. -/
def driveLines (active : Bool) (on : Pattern) : Pattern :=
  if active then on else ~~~on

/-- R12: the electrical level of one line. -/
def driveLine (active on : Bool) : Bool :=
  if active then on else !on

end Sys2Proof.Machine
end

