-- ==== Sys2Proof/Machine/Encoder.lean ====
section
/-! DEFINITION. The segment encoder and both row assemblies (40_segment_encoder.md R100 to R111): pure functions of their
arguments and the configuration. -/

namespace Sys2Proof.Machine

/-- R101 `digits(v)`: the tens digit and the ones digit; no leading zero is blanked. -/
def digits (v : Nat) : Nat × Nat := (v / 10, v % 10)

/-- R102 `glyph(d)`: the segment vector of a digit, the blank glyph above 9. -/
def glyph (c : Config) (d : Nat) : Pattern :=
  if h : d ≤ 9 then c.seg[d]'(Nat.lt_succ_of_le h) else c.segBlank

/-- R103 `colon()`. -/
def colon (c : Config) : Pattern := c.colonPattern

/-- R104: the condition of the alarm-disabled icon. -/
def alarmDisabled (c : Config) (hasAlarm alarmEnabled : Bool) : Bool :=
  match c.alarmDisabledMode with
  | .notEnabled => !alarmEnabled
  | .presentAndNotEnabled => hasAlarm && !alarmEnabled

/-- R104 `left_icons(has_alarm, alarm_enabled)`. -/
def leftIcons (c : Config) (hasAlarm alarmEnabled : Bool) : Pattern :=
  bitAt c.iconPresentPos hasAlarm ||| bitAt c.iconDisabledPos (alarmDisabled c hasAlarm alarmEnabled)

/-- R106 `clamp15(v)`: saturation. -/
def clamp15 (v : Nat) : Nat := min v 15

/-- R105 `right_icons(error)`: bit k of the clamped code goes to row ERR_POS[k]. -/
def rightIcons (c : Config) (error : BitVec 8) : Pattern :=
  let e := clamp15 error.toNat
  bitAt c.errPos[0] (e.testBit 0) ||| bitAt c.errPos[1] (e.testBit 1) ||| bitAt c.errPos[2] (e.testBit 2) |||
    bitAt c.errPos[3] (e.testBit 3)

/-- R107 `matrix_columns(S)`: the seven column patterns. -/
def matrixColumns (c : Config) (s : Clock) : Vector Pattern 7 :=
  let h := digits s.hours.toNat
  let m := digits s.minutes.toNat
  #v[glyph c h.1, leftIcons c s.hasAlarm s.alarmEnabled, glyph c h.2, colon c, glyph c m.1, rightIcons c s.error,
    glyph c m.2]

/-- R108 `ceiling_digits(S)`: position 0 is the tens of hours, position 3 the ones of minutes. -/
def ceilingDigits (s : Clock) : Vector Nat 4 :=
  let h := digits s.hours.toNat
  let m := digits s.minutes.toNat
  #v[h.1, h.2, m.1, m.2]

/-- R109: one wire bit, 0 where the table's entry is the sentinel 7, else the segment the entry names. -/
def mangleBit (t : Fin 8) (seg : Pattern) : Bool :=
  if t.val = 7 then false else seg.getLsbD t.val

/-- R109 `mangle(up, s)`: the 8-bit wire group. -/
def mangle (c : Config) (up : Bool) (seg : Pattern) : BitVec 8 :=
  BitVec.ofNat 8 (bitsToNat ((c.mangleTable up).toList.map fun t => mangleBit t seg))

/-- R110 `group_order(up)`: the digit position that slot k of the frame carries. -/
def groupOrder (up : Bool) : Vector (Fin 4) 4 :=
  if up then #v[0, 1, 2, 3] else #v[3, 2, 1, 0]

/-- R111: the wire group of slot k. -/
def ceilingGroup (c : Config) (s : Clock) (k : Fin 4) : BitVec 8 :=
  mangle c s.ceilingUp (glyph c (ceilingDigits s)[(groupOrder s.ceilingUp)[k]])

/-- R111 `ceiling_groups(S)`: the four groups in transmission order. -/
def ceilingGroups (c : Config) (s : Clock) : Vector (BitVec 8) 4 :=
  #v[ceilingGroup c s 0, ceilingGroup c s 1, ceilingGroup c s 2, ceilingGroup c s 3]

end Sys2Proof.Machine
end

