-- ==== Sys2Proof/Machine/Sequencer.lean ====
section
/-! DEFINITION. What the three display units share: the PWM arithmetic of 41_matrix_scanner.md R140, and the loop
"while rem == 0: advance()" of R145, R176 and R187, bounded (log 9). -/

namespace Sys2Proof.Machine

/-- The four results of R140. -/
structure PwmTiming where
  period : Nat
  onTotal : Nat
  colOn : Nat
  pause : Nat
  deriving DecidableEq, Repr

/-- `period_us = 1000000 / refresh_rate` (R140, R172), floor division. -/
def periodUs (rate : Nat) : Nat := 1000000 / rate

/-- R140 `pwm_timing(rate, dim)`. -/
def pwmTiming (rate dim : Nat) : PwmTiming :=
  let period := periodUs rate
  let onTotal := period * dim / 100
  ⟨period, onTotal, onTotal / 7, period - onTotal⟩

/-- The most phases a unit leaves at one boundary. MX leaves ten when a cycle with no pause ends and the next has no lit
column: COL(6), PAUSE, START, COL(0) to COL(6), one more than the count in R144's text (log 9). SR and PW leave at most
four (R175, R187). -/
def settleBound : Nat := 10

/-- The loop "while rem == 0: advance()": leave zero-length phases until one lasts, at most `fuel` of them; none where the
loop is still not over (log 9). -/
def settle {α : Type} (rem : α → Nat) (advance : α → α) : Nat → α → Option α
  | 0, a => if rem a = 0 then none else some a
  | fuel + 1, a => if rem a = 0 then settle rem advance fuel (advance a) else some a

end Sys2Proof.Machine
end

