-- ==== Sys2Proof/Machine/Ceiling.lean ====
section
/-! DEFINITION. The ceiling display: SR, the serializer (42_ceiling_driver.md R170 to R181), and PW, the enable-line
generator (R184 to R188). -/

namespace Sys2Proof.Machine

/-! ### What is sent -/

/-- R171 `cmd_seq(i)`. -/
def cmdSeq (c : Config) (i : Fin 3) : List Bool := msbFirst c.cmd[i]

/-- R173 `data_frame(S)`: header, four groups, then the dots bit forced high. -/
def dataFrame (c : Config) (clk : Clock) : List Bool :=
  let g := ceilingGroups c clk
  (msbFirst c.hdr ++ msbFirst g[0] ++ msbFirst g[1] ++ msbFirst g[2] ++ msbFirst g[3]).set c.dotsOffset.val true

/-- R170: the four sequences of one transmission. -/
def transmission (c : Config) (clk : Clock) : Vector (List Bool) 4 :=
  #v[cmdSeq c 0, cmdSeq c 1, cmdSeq c 2, dataFrame c clk]

/-- R178 `T_SEQ(n)`. -/
def tSeq (c : Config) (n : Nat) : Nat := c.tSettle + n * (c.tClkLow + c.tRise) + c.tGap

/-- R178 `T_FRAME`. -/
def tFrame (c : Config) : Nat := 3 * tSeq c 12 + tSeq c 41

/-! ### The serializer -/

/-- "enter P with d" (00_scope.md R10). -/
def Sr.enter (r : Sr) (p : SrPhase) (d : Nat) : Sr := { r with phase := p, rem := d }

/-- R172: the transmission snapshot. -/
def Sr.snapshot (c : Config) (clk : Clock) (r : Sr) : Sr :=
  let period := periodUs clk.refreshRate.toNat
  { r with seq := transmission c clk, idle := if tFrame c < period then period - tFrame c else 0 }

/-- Bit i of sequence s (R175). -/
def Sr.bit (r : Sr) (s : Fin 4) (i : Nat) : Bool := r.seq[s].getD i false

/-- R175: drive bit i of sequence s and enter its clock-low phase. -/
def Sr.enterBit (c : Config) (r : Sr) (s : Fin 4) (i : Nat) : Sr :=
  { r with data := r.bit s i }.enter (.clkLow s i) c.tClkLow

/-- R175 `SR_advance()`. -/
def srAdvance (c : Config) (clk : Clock) (r : Sr) : Sr :=
  match r.phase with
  | .start => (r.snapshot c clk).enter (.latchLow 0) c.tSettle
  | .latchLow s => r.enterBit c s 0
  | .clkLow s i => r.enter (.clkHigh s i) c.tRise
  | .clkHigh s i => if i + 1 < r.seq[s].length then r.enterBit c s (i + 1) else r.enter (.gap s) c.tGap
  | .gap s => if h : s.val < 3 then r.enter (.latchLow ⟨s.val + 1, by omega⟩) c.tSettle else r.enter .idle r.idle
  | .idle => r.enter .start 0

/-- R174, R177: CEIL_LATCH in a phase. -/
def srLatchLevel : SrPhase → Bool
  | .start => true
  | .latchLow _ => false
  | .clkLow _ _ => false
  | .clkHigh _ _ => false
  | .gap _ => true
  | .idle => true

/-- R174, R177: CEIL_CLK in a phase. -/
def srClkLevel : SrPhase → Bool
  | .start => true
  | .latchLow _ => true
  | .clkLow _ _ => false
  | .clkHigh _ _ => true
  | .gap _ => true
  | .idle => true

/-- R177 `SR_outputs(phase)`. -/
def srEmit (r : Sr) : Sr :=
  { r with latchLine := srLatchLevel r.phase, clkLine := srClkLevel r.phase, dataLine := r.data }

/-- R176 `SR_step(k)`; none where the loop does not end (log 9). -/
def srStep (c : Config) (clk : Clock) (r : Sr) : Option Sr :=
  match settle Sr.rem (srAdvance c clk) settleBound { r with rem := r.rem - 1 } with
  | some r' => some (srEmit r')
  | none => none

/-! ### The enable-line PWM -/

/-- "enter P with d" (00_scope.md R10). -/
def Pw.enter (p : Pw) (ph : PwPhase) (d : Nat) : Pw := { p with phase := ph, rem := d }

/-- R187 `PW_advance()`, with the snapshot of R186. -/
def pwAdvance (clk : Clock) (p : Pw) : Pw :=
  match p.phase with
  | .start =>
    let t := pwmTiming clk.refreshRate.toNat clk.ceilingDim.toNat
    { p with low := t.pause }.enter .high t.onTotal
  | .high => p.enter .low p.low
  | .low => p.enter .start 0

/-- R185: CEIL_EN is active in every tick of HIGH. -/
def pwActive : PwPhase → Bool
  | .start => false
  | .high => true
  | .low => false

/-- R185: CEIL_EN at electrical level (R12). -/
def pwEmit (c : Config) (p : Pw) : Pw := { p with enLine := driveLine c.enActive (pwActive p.phase) }

/-- R187 `PW_step(k)`; none where the loop does not end (log 9). -/
def pwStep (c : Config) (clk : Clock) (p : Pw) : Option Pw :=
  match settle Pw.rem (pwAdvance clk) settleBound { p with rem := p.rem - 1 } with
  | some p' => some (pwEmit c p')
  | none => none

end Sys2Proof.Machine
end

