-- ==== Sys2Proof/Machine/Reads.lean ====
section
/-! DEFINITION. The thirteen read commands (44_host_interface.md R261 to R273). Every read is accepted; its DATA is ignored
(30_encoding.md R84). -/

namespace Sys2Proof.Machine

/-- RD HOURS (R261). -/
def execRdHours (s : State) : Host.Outcome State Fault Refusal := .next (s.readReg .hours)

/-- RD MINUTES (R262). -/
def execRdMinutes (s : State) : Host.Outcome State Fault Refusal := .next (s.readReg .minutes)

/-- RD HAS_ALARM (R263). -/
def execRdHasAlarm (s : State) : Host.Outcome State Fault Refusal := .next (s.readReg .hasAlarm)

/-- RD ALARM_ENABLED (R264). -/
def execRdAlarmEnabled (s : State) : Host.Outcome State Fault Refusal := .next (s.readReg .alarmEnabled)

/-- RD ERROR (R265): the stored raw value. -/
def execRdError (s : State) : Host.Outcome State Fault Refusal := .next (s.readReg .error)

/-- RD REGULAR_DIM (R266). -/
def execRdRegularDim (s : State) : Host.Outcome State Fault Refusal := .next (s.readReg .regularDim)

/-- RD CEILING_DIM (R267). -/
def execRdCeilingDim (s : State) : Host.Outcome State Fault Refusal := .next (s.readReg .ceilingDim)

/-- RD REFRESH_RATE (R268). -/
def execRdRefreshRate (s : State) : Host.Outcome State Fault Refusal := .next (s.readReg .refreshRate)

/-- RD CEILING_UP (R269). -/
def execRdCeilingUp (s : State) : Host.Outcome State Fault Refusal := .next (s.readReg .ceilingUp)

/-- RD STATUS (R270): reading does not clear. -/
def execRdStatus (s : State) : Host.Outcome State Fault Refusal := .next (s.readReg .status)

/-- RD EVENT (R271): returns and removes the oldest entry; 0 and nothing removed when the FIFO is empty. -/
def execRdEvent (s : State) : Host.Outcome State Fault Refusal := .next (s.readReg .event).popEvent

/-- RD LAST_SAMPLE (R272). -/
def execRdLastSample (s : State) : Host.Outcome State Fault Refusal := .next (s.readReg .lastSample)

/-- RD PRESS_DURATION (R273). -/
def execRdPressDuration (s : State) : Host.Outcome State Fault Refusal := .next (s.readReg .pressDuration)

end Sys2Proof.Machine
end

