-- ==== Sys2Proof/Machine/Writes.lean ====
section
/-! DEFINITION. The ten write commands (44_host_interface.md R274 to R283). Legal data is stored and acknowledged; any
other data is rejected with cause 4 and changes nothing but STATUS (60_exceptions.md R300). -/

namespace Sys2Proof.Machine

/-- WR HOURS (R274): 0..23. -/
def execWrHours (d : Data) (s : State) : Host.Outcome State Fault Refusal :=
  .next (s.writeClock (dataAtMost 23 d) { s.clock with hours := d.setWidth 7 })

/-- WR MINUTES (R275): 0..59. -/
def execWrMinutes (d : Data) (s : State) : Host.Outcome State Fault Refusal :=
  .next (s.writeClock (dataAtMost 59 d) { s.clock with minutes := d.setWidth 7 })

/-- WR HAS_ALARM (R276): 0..1. -/
def execWrHasAlarm (d : Data) (s : State) : Host.Outcome State Fault Refusal :=
  .next (s.writeClock (dataAtMost 1 d) { s.clock with hasAlarm := dataBit d })

/-- WR ALARM_ENABLED (R277): 0..1. -/
def execWrAlarmEnabled (d : Data) (s : State) : Host.Outcome State Fault Refusal :=
  .next (s.writeClock (dataAtMost 1 d) { s.clock with alarmEnabled := dataBit d })

/-- WR ERROR (R278): 0..255, stored raw. -/
def execWrError (d : Data) (s : State) : Host.Outcome State Fault Refusal :=
  .next (s.writeClock (dataAtMost 255 d) { s.clock with error := d.setWidth 8 })

/-- WR REGULAR_DIM (R279): 0..100. -/
def execWrRegularDim (d : Data) (s : State) : Host.Outcome State Fault Refusal :=
  .next (s.writeClock (dataAtMost 100 d) { s.clock with regularDim := d.setWidth 7 })

/-- WR CEILING_DIM (R280): 0..100. -/
def execWrCeilingDim (d : Data) (s : State) : Host.Outcome State Fault Refusal :=
  .next (s.writeClock (dataAtMost 100 d) { s.clock with ceilingDim := d.setWidth 7 })

/-- WR REFRESH_RATE (R281): 1..142857. -/
def execWrRefreshRate (d : Data) (s : State) : Host.Outcome State Fault Refusal :=
  .next (s.writeClock (dataIsRate d) { s.clock with refreshRate := d.setWidth 18 })

/-- WR CEILING_UP (R282): 0..1. -/
def execWrCeilingUp (d : Data) (s : State) : Host.Outcome State Fault Refusal :=
  .next (s.writeClock (dataAtMost 1 d) { s.clock with ceilingUp := dataBit d })

/-- WR STATUS (R283): write-1-to-clear. -/
def execWrStatus (d : Data) (s : State) : Host.Outcome State Fault Refusal := .next (s.writeStatus d)

end Sys2Proof.Machine
end

