-- ==== Sys2Proof/Machine/Dispatch.lean ====
section
/-! DEFINITION. Dispatch: one arm per host command, each a direct call of its meaning. -/

namespace Sys2Proof.Machine

def exec (i : Instr) (s : State) : Host.Outcome State Fault Refusal :=
  match i with
  | .rdHours => Sys2Proof.Machine.execRdHours s
  | .rdMinutes => Sys2Proof.Machine.execRdMinutes s
  | .rdHasAlarm => Sys2Proof.Machine.execRdHasAlarm s
  | .rdAlarmEnabled => Sys2Proof.Machine.execRdAlarmEnabled s
  | .rdError => Sys2Proof.Machine.execRdError s
  | .rdRegularDim => Sys2Proof.Machine.execRdRegularDim s
  | .rdCeilingDim => Sys2Proof.Machine.execRdCeilingDim s
  | .rdRefreshRate => Sys2Proof.Machine.execRdRefreshRate s
  | .rdCeilingUp => Sys2Proof.Machine.execRdCeilingUp s
  | .rdStatus => Sys2Proof.Machine.execRdStatus s
  | .rdEvent => Sys2Proof.Machine.execRdEvent s
  | .rdLastSample => Sys2Proof.Machine.execRdLastSample s
  | .rdPressDuration => Sys2Proof.Machine.execRdPressDuration s
  | .wrHours d => Sys2Proof.Machine.execWrHours d s
  | .wrMinutes d => Sys2Proof.Machine.execWrMinutes d s
  | .wrHasAlarm d => Sys2Proof.Machine.execWrHasAlarm d s
  | .wrAlarmEnabled d => Sys2Proof.Machine.execWrAlarmEnabled d s
  | .wrError d => Sys2Proof.Machine.execWrError d s
  | .wrRegularDim d => Sys2Proof.Machine.execWrRegularDim d s
  | .wrCeilingDim d => Sys2Proof.Machine.execWrCeilingDim d s
  | .wrRefreshRate d => Sys2Proof.Machine.execWrRefreshRate d s
  | .wrCeilingUp d => Sys2Proof.Machine.execWrCeilingUp d s
  | .wrStatus d => Sys2Proof.Machine.execWrStatus d s

end Sys2Proof.Machine
end

