-- ==== Sys2Proof/Machine/Matrix.lean ====
section
/-! DEFINITION. MX, the LED matrix scanner with PWM brightness (41_matrix_scanner.md R141 to R147). -/

namespace Sys2Proof.Machine

/-- "enter P with d" (00_scope.md R10). -/
def Mx.enter (m : Mx) (p : MxPhase) (d : Nat) : Mx := { m with phase := p, rem := d }

/-- R142: the cycle snapshot. -/
def Mx.snapshot (c : Config) (clk : Clock) (m : Mx) : Mx :=
  let t := pwmTiming clk.refreshRate.toNat clk.regularDim.toNat
  { m with pat := matrixColumns c clk, colOn := t.colOn, pause := t.pause }

/-- R143 `advance()`. -/
def mxAdvance (c : Config) (clk : Clock) (m : Mx) : Mx :=
  match m.phase with
  | .start => (m.snapshot c clk).enter (.col 0) (m.snapshot c clk).colOn
  | .col i => if h : i.val < 6 then m.enter (.col ⟨i.val + 1, by omega⟩) m.colOn else m.enter .pause m.pause
  | .pause => m.enter .start 0

/-- R146: the columns that are active in a phase. -/
def mxActiveCols : MxPhase → Pattern
  | .col i => 1#7 <<< i.val
  | .pause => 0
  | .start => 0

/-- R146: the rows that are active in a phase. -/
def mxActiveRows (m : Mx) : Pattern :=
  match m.phase with
  | .col i => m.pat[i]
  | .pause => 0
  | .start => 0

/-- R146 `MX_outputs(phase)`, at electrical level (R12). -/
def mxEmit (c : Config) (m : Mx) : Mx :=
  { m with row := driveLines c.rowActive (mxActiveRows m), col := driveLines c.colActive (mxActiveCols m.phase) }

/-- R145 `MX_step(k)`; none where the loop does not end (log 9). -/
def mxStep (c : Config) (clk : Clock) (m : Mx) : Option Mx :=
  match settle Mx.rem (mxAdvance c clk) settleBound { m with rem := m.rem - 1 } with
  | some m' => some (mxEmit c m')
  | none => none

end Sys2Proof.Machine
end

