-- ==== Sys2Proof/Machine/Tick.lean ====
section
/-! DEFINITION. One boundary (20_memory.md R67): the host's commands one at a time (step (1)), then one tick: the edge
detectors (step (2)), the four units (step (3)), and the outputs, held in the state until the next tick (step (4)). -/

namespace Sys2Proof.Machine

/-- R67 steps (2) to (4) once the units' own steps m, r and p are known: no unit reads what another writes at the same
boundary, so the order is of no account (log 15). -/
def finishTick (s : State) (m : Mx) (r : Sr) (p : Pw) : State :=
  (bdStep ((((edgeDetect s).setMx m).setSr r).setPw p)).nextBoundary

/-- R67 steps (2) to (4). The faults are log 9's: no reachable state raises one. -/
def tick (s : State) : Host.Outcome State Fault Refusal :=
  match mxStep s.cfg s.clock s.mx with
  | none => .fault .mxNeverSettles
  | some m =>
    match srStep s.cfg s.clock s.sr with
    | none => .fault .srNeverSettles
    | some r =>
      match pwStep s.cfg s.clock s.pw with
      | none => .fault .pwNeverSettles
      | some p => .next (finishTick s m r p)

/-- R260 `execute(w)`: a word that decodes to a command runs it; a word that does not is rejected with its cause. -/
def execWord (w : Word) (s : State) : Host.Outcome State Fault Refusal :=
  match decode w with
  | .cmd i => exec i s
  | .reject c => .next (s.reject c)

/-- One step (log 6): under RESET the boundary resets the block (R330); else the next command of this boundary runs
(R67 step (1)); with none left, the tick. -/
def stepOnce (s : State) : Host.Outcome State Fault Refusal :=
  if s.resetAsserted then .next s.resetBoundary
  else
    match s.nextCmd with
    | some (w, rest) => execWord w (s.setCmds rest)
    | none => tick s

/-- The state in which w is the next command: issued at the current boundary before every other, RESET not asserted
there (log 11). -/
def State.withCommand (s : State) (w : Word) : State :=
  s.setWorld { s.world with
    cmds := (s.world.now, w) :: s.world.cmds
    resets := s.world.resets.filter fun k => k != s.world.now }

end Sys2Proof.Machine
end

