-- ==== Sys2Proof/Machine/Step.lean ====
section
/-! DEFINITION. The step of the machine, and how a command is placed for it. -/

namespace Sys2Proof.Machine

/-- One step: one boundary under RESET, one host command, or one tick (log 6). -/
def step (s : State) : Host.Outcome State Fault Refusal := stepOnce s

/-- s with the command word of bits w (of which nbits are given, the rest 0) as the next command (log 11). -/
def State.withFetchWord (s : State) (nbits w : Nat) : State :=
  s.withCommand (BitVec.ofNat 32 (w % 2 ^ nbits))

end Sys2Proof.Machine
end

