-- ==== Sys2Proof/Machine/Assembler.lean ====
section
/-! DEFINITION. Assembler syntax, pseudo-instructions and disassembly of the host commands (30_encoding.md R87, R88, R89),
on lists of characters. Points the rules leave open (spacing, digits printed) are log 17. -/

namespace Sys2Proof.Machine

/-- One assembled command: RD, WR of any register (the block rejects those it may not write, R87), or an arbitrary word. -/
inductive AsmOp where
  | rd (r : Reg)
  | wr (r : Reg) (v : Data)
  | word (w : Word)
  deriving DecidableEq, Repr

/-- R87: `RD r` assembles to ADDR(r) << 24, `WR r, v` to 0x80000000 | ADDR(r) << 24 | v, `.word v` to v. -/
def assembleOp : AsmOp → Word
  | .rd r => hcWord false r.addr 0
  | .wr r v => hcWord true r.addr v
  | .word w => w

/-- R88: the pseudo-instructions. -/
inductive Pseudo where
  | setTime (h m : Data)
  | setAlarm (p e : Data)
  | setDim (r c : Data)
  | clrStatus
  | popEvt
  | nop
  deriving DecidableEq, Repr

/-- R88: their expansions, all issued at one boundary. -/
def expandPseudo : Pseudo → List AsmOp
  | .setTime h m => [.wr .hours h, .wr .minutes m]
  | .setAlarm p e => [.wr .hasAlarm p, .wr .alarmEnabled e]
  | .setDim r c => [.wr .regularDim r, .wr .ceilingDim c]
  | .clrStatus => [.wr .status 0xF]
  | .popEvt => [.rd .event]
  | .nop => [.rd .status]

/-- The assembled form of a command of R85. -/
def opOfInstr : Instr → AsmOp
  | .rdHours => .rd .hours
  | .rdMinutes => .rd .minutes
  | .rdHasAlarm => .rd .hasAlarm
  | .rdAlarmEnabled => .rd .alarmEnabled
  | .rdError => .rd .error
  | .rdRegularDim => .rd .regularDim
  | .rdCeilingDim => .rd .ceilingDim
  | .rdRefreshRate => .rd .refreshRate
  | .rdCeilingUp => .rd .ceilingUp
  | .rdStatus => .rd .status
  | .rdEvent => .rd .event
  | .rdLastSample => .rd .lastSample
  | .rdPressDuration => .rd .pressDuration
  | .wrHours d => .wr .hours d
  | .wrMinutes d => .wr .minutes d
  | .wrHasAlarm d => .wr .hasAlarm d
  | .wrAlarmEnabled d => .wr .alarmEnabled d
  | .wrError d => .wr .error d
  | .wrRegularDim d => .wr .regularDim d
  | .wrCeilingDim d => .wr .ceilingDim d
  | .wrRefreshRate d => .wr .refreshRate d
  | .wrCeilingUp d => .wr .ceilingUp d
  | .wrStatus d => .wr .status d

/-- R89: disassembly; a word that decodes to a rejection prints as `.word`. -/
def disassemble (w : Word) : AsmOp :=
  match decode w with
  | .cmd i => opOfInstr i
  | .reject _ => .word w

/-! ### Text -/

/-- The name of a register (10_state.md section 2, R87). -/
def regName : Reg → String
  | .hours => "HOURS"
  | .minutes => "MINUTES"
  | .hasAlarm => "HAS_ALARM"
  | .alarmEnabled => "ALARM_ENABLED"
  | .error => "ERROR"
  | .regularDim => "REGULAR_DIM"
  | .ceilingDim => "CEILING_DIM"
  | .refreshRate => "REFRESH_RATE"
  | .ceilingUp => "CEILING_UP"
  | .status => "STATUS"
  | .event => "EVENT"
  | .lastSample => "LAST_SAMPLE"
  | .pressDuration => "PRESS_DURATION"

/-- Every register, in address order. -/
def allRegs : List Reg :=
  [.hours, .minutes, .hasAlarm, .alarmEnabled, .error, .regularDim, .ceilingDim, .refreshRate, .ceilingUp, .status, .event,
    .lastSample, .pressDuration]

/-- The register a name stands for. -/
def parseReg (t : List Char) : Option Reg := allRegs.find? fun r => (regName r).toList == t

/-- The value of a digit in base 10 or 16. -/
def digitValue (base : Nat) (c : Char) : Option Nat :=
  let n := c.toNat
  let v := if 48 ≤ n && n ≤ 57 then some (n - 48)
    else if 65 ≤ n && n ≤ 70 then some (n - 55)
    else if 97 ≤ n && n ≤ 102 then some (n - 87)
    else none
  match v with
  | some d => if d < base then some d else none
  | none => none

/-- A non-empty run of digits, most significant first; acc is the value so far. -/
def parseDigits (base : Nat) : Nat → List Char → Option Nat
  | _, [] => none
  | acc, [c] => (digitValue base c).map fun d => acc * base + d
  | acc, c :: rest =>
    match digitValue base c with
    | some d => parseDigits base (acc * base + d) rest
    | none => none

/-- R87 `<value>`: a decimal or 0x-prefixed hexadecimal natural. -/
def parseNat : List Char → Option Nat
  | '0' :: 'x' :: rest => parseDigits 16 0 rest
  | t => parseDigits 10 0 t

/-- A `<value>` of WR: below 2^24 (R87). -/
def parseData (t : List Char) : Option Data :=
  match parseNat t with
  | some n => if n < 2 ^ 24 then some (BitVec.ofNat 24 n) else none
  | none => none

/-- A `<value>` of `.word`: any 32-bit word (R87). -/
def parseWord (t : List Char) : Option Word :=
  match parseNat t with
  | some n => if n < 2 ^ 32 then some (BitVec.ofNat 32 n) else none
  | none => none

/-- Put a finished token before the others; an empty one is none. -/
def consToken (t : List Char) (ts : List (List Char)) : List (List Char) := if t.isEmpty then ts else t :: ts

/-- The tokens of a line: runs between blanks, a comma being a token of its own; a `;` ends the line (R87). DESIGN CHOICE
(log 17): a blank is a space, a tab or a carriage return. acc is the token being read, reversed. -/
def tokens : List Char → List Char → List (List Char)
  | acc, [] => consToken acc.reverse []
  | acc, c :: rest =>
    if c = ';' then consToken acc.reverse []
    else if c = ' ' || c = '\t' || c = '\r' then consToken acc.reverse (tokens [] rest)
    else if c = ',' then consToken acc.reverse ([','] :: tokens [] rest)
    else tokens (c :: acc) rest

/-- A two-operand pseudo-instruction by name (R88). -/
def pseudo2 (name : List Char) (a b : Data) : Option Pseudo :=
  if name = "SETTIME".toList then some (.setTime a b)
  else if name = "SETALARM".toList then some (.setAlarm a b)
  else if name = "SETDIM".toList then some (.setDim a b)
  else none

/-- The commands of one line, its `@<k>` taken off: R87's three forms and R88's pseudo-instructions. -/
def parseOps : List (List Char) → Option (List AsmOp)
  | [op] =>
    if op = "CLRSTATUS".toList then some (expandPseudo .clrStatus)
    else if op = "POPEVT".toList then some (expandPseudo .popEvt)
    else if op = "NOP".toList then some (expandPseudo .nop)
    else none
  | [op, a] =>
    if op = "RD".toList then (parseReg a).map fun r => [.rd r]
    else if op = ".word".toList then (parseWord a).map fun w => [.word w]
    else none
  | [op, a, [','], b] =>
    if op = "WR".toList then
      match parseReg a, parseData b with
      | some r, some v => some [.wr r v]
      | _, _ => none
    else
      match parseData a, parseData b with
      | some x, some y => (pseudo2 op x y).map expandPseudo
      | _, _ => none
  | _ => none

/-- One line at boundary k, the boundary of the line before: the boundary after it and the commands it issues (R87). DESIGN
CHOICE (log 17): the k of `@<k>` is a natural in the form of a `<value>`, decimal or 0x-prefixed hexadecimal, of any size; a line
with no token issues nothing. -/
def assembleLine (k : Nat) (line : List Char) : Option (Nat × List (Nat × Word)) :=
  match tokens [] line with
  | [] => some (k, [])
  | ('@' :: n) :: rest =>
    match parseNat n, parseOps rest with
    | some k', some ops => some (k', ops.map fun o => (k', assembleOp o))
    | _, _ => none
  | ts => (parseOps ts).map fun ops => (k, ops.map fun o => (k, assembleOp o))

/-- The lines of a text. acc is the line being read, reversed. -/
def splitLines : List Char → List Char → List (List Char)
  | acc, [] => [acc.reverse]
  | acc, c :: rest => if c = '\n' then acc.reverse :: splitLines [] rest else splitLines (c :: acc) rest

/-- Lines from boundary k on. -/
def assembleLines : Nat → List (List Char) → Option (List (Nat × Word))
  | _, [] => some []
  | k, line :: rest =>
    match assembleLine k line with
    | some (k', ops) => (assembleLines k' rest).map fun more => ops ++ more
    | none => none

/-- R87: a program text as the host's (boundary, word) pairs, the form World.cmds takes; none where a line is no
command. -/
def assemble (text : String) : Option (List (Nat × Word)) := assembleLines 0 (splitLines [] text.toList)

/-- An upper-case hexadecimal digit. -/
def hexDigit (n : Nat) : Char := if n < 10 then Char.ofNat (48 + n) else Char.ofNat (55 + n)

/-- The low `k` hexadecimal digits of n, most significant first. -/
def hexDigits (n : Nat) : Nat → List Char
  | 0 => []
  | k + 1 => hexDigits (n / 16) k ++ [hexDigit (n % 16)]

/-- R89: the printed form of a command: `RD <reg>`, `WR <reg>, 0x<DATA>`, `.word 0x<w>`. -/
def renderOp : AsmOp → List Char
  | .rd r => "RD ".toList ++ (regName r).toList
  | .wr r v => "WR ".toList ++ (regName r).toList ++ ", 0x".toList ++ hexDigits v.toNat 6
  | .word w => ".word 0x".toList ++ hexDigits w.toNat 8

end Sys2Proof.Machine
end

