-- ==== Sys2Proof/Machine/Receiver.lean ====
section
/-! DEFINITION. The reference receiver of 42_ceiling_driver.md R183: for testing a model only, no part of the block and no
field of State. It watches the three lines SR drives. -/

namespace Sys2Proof.Machine

/-- R183: the levels seen last, the shift list, and the words committed, oldest first. -/
structure Receiver where
  latch : Bool
  clk : Bool
  shift : List Bool
  words : List (List Bool)
  deriving DecidableEq, Repr

/-- R183: a receiver before the first tick: the lines at their reset levels (10_state.md R38), nothing shifted. -/
def Receiver.idle : Receiver := ⟨true, true, [], []⟩

/-- R183: the shift list after a tick with these lines: CEIL_DATA appended at a rising edge of CEIL_CLK while CEIL_LATCH
is 0. DESIGN CHOICE (log 19): CEIL_LATCH is the level of the new tick, so where CEIL_CLK and CEIL_LATCH rise together, as RESET in
CLK_LOW makes them (R334), that bit is not shifted and the commit takes the bits before it. -/
def Receiver.shifted (v : Receiver) (latch clk data : Bool) : List Bool :=
  if !v.clk && clk && !latch then v.shift ++ [data] else v.shift

/-- R183: one tick; a rising edge of CEIL_LATCH commits the shift list as one word and empties it. -/
def Receiver.watch (v : Receiver) (latch clk data : Bool) : Receiver :=
  if !v.latch && latch then ⟨latch, clk, [], v.words ++ [v.shifted latch clk data]⟩
  else ⟨latch, clk, v.shifted latch clk data, v.words⟩

/-- R183: one tick of SR's lines. -/
def Receiver.watchSr (v : Receiver) (r : Sr) : Receiver := v.watch r.latchLine r.clkLine r.dataLine

end Sys2Proof.Machine
end

