-- ==== Sys2Proof/Safety.lean ====
section
/-! DEFINITION. What counts as a safe run, in the terms the statements use: the invariant State.Inv that every step keeps,
runs of one unit and of the whole block, the positions in a run that the timing rules name (START left, the last measurement
pass ends), what a tick of BD keeps or takes, and the key levels of later boundaries. -/

namespace Sys2Proof.Machine

/-! ### The invariant -/

/-- R36: HOURS and MINUTES are in range or hold their reset value 88; the dims and the rate are in range. -/
abbrev Clock.InRange (k : Clock) : Prop :=
  (k.hours.toNat < 24 ∨ k.hours = 88) ∧ (k.minutes.toNat < 60 ∨ k.minutes = 88) ∧ k.regularDim.toNat ≤ 100 ∧
    k.ceilingDim.toNat ≤ 100 ∧ 1 ≤ k.refreshRate.toNat ∧ k.refreshRate.toNat ≤ 142857

/-- R30, R301: BADCMD_CAUSE is 0 exactly while BADCMD is clear, and never above 4. -/
abbrev Status.Consistent (st : Status) : Prop := (st.badcmd = false ↔ st.cause = 0) ∧ st.cause.toNat ≤ 4

/-- R31: bit 23 of LAST_SAMPLE is zero, and an absent sample has SAMPLE 0 and MATCHED 0. -/
abbrev lastSampleOk (v : Data) : Prop :=
  v.getLsbD 23 = false ∧ (v.getLsbD 20 = false → v.extractLsb' 0 20 = 0 ∧ v.getLsbD 22 = false)

/-- The duration of MX's phase (R141). -/
def mxSlot (m : Mx) : Nat :=
  match m.phase with
  | .start => 0
  | .col _ => m.colOn
  | .pause => m.pause

/-- MX between boundaries: the ticks left lie in the phase's slot, only START has none left, and the lines are those of
the phase (R143 to R147). -/
abbrev Mx.Inv (c : Config) (m : Mx) : Prop := m.rem ≤ mxSlot m ∧ (m.phase ≠ .start → 1 ≤ m.rem) ∧ mxEmit c m = m

/-- The duration of SR's phase (R174, R175). -/
def srSlot (c : Config) (r : Sr) : Nat :=
  match r.phase with
  | .start => 0
  | .latchLow _ => c.tSettle
  | .clkLow _ _ => c.tClkLow
  | .clkHigh _ _ => c.tRise
  | .gap _ => c.tGap
  | .idle => r.idle

/-- In a bit's two phases, the bit is one of its sequence and CEIL_DATA carries it (R174). -/
def srBitOk (r : Sr) : Bool :=
  match r.phase with
  | .start => true
  | .latchLow _ => true
  | .clkLow s i => decide (i < r.seq[s].length) && r.data == r.bit s i
  | .clkHigh s i => decide (i < r.seq[s].length) && r.data == r.bit s i
  | .gap _ => true
  | .idle => true

/-- SR between boundaries; once a transmission runs its sequences have the lengths 12, 12, 12, 41 (R170). -/
abbrev Sr.Inv (c : Config) (r : Sr) : Prop :=
  r.rem ≤ srSlot c r ∧ (r.phase ≠ .start → 1 ≤ r.rem ∧ r.seq.toList.map List.length = [12, 12, 12, 41]) ∧
    srBitOk r = true ∧ srEmit r = r

/-- PW between boundaries: a period is at most 1000000 ticks (R140, R187). -/
abbrev Pw.Inv (c : Config) (p : Pw) : Prop :=
  (p.phase = .start → p.rem = 0) ∧ (p.phase ≠ .start → 1 ≤ p.rem) ∧ (p.phase = .high → p.rem + p.low ≤ 1000000) ∧
    (p.phase = .low → p.rem ≤ p.low) ∧ pwEmit c p = p

/-- The counters of BD's phase are within their limits (R215 to R217, R223). -/
def bdCountOk (c : Config) (b : Bd) : Bool :=
  match b.phase with
  | .idle => true
  | .debounce => decide (1 ≤ b.rem) && decide (b.rem ≤ c.tDebounce)
  | .dis1 => decide (1 ≤ b.rem) && decide (b.rem ≤ c.tDischarge)
  | .meas1 => decide (b.cnt < c.tMeasureMax)
  | .dis2 => decide (1 ≤ b.rem) && decide (b.rem ≤ c.tDischarge) && c.doubleSample
  | .meas2 => decide (b.cnt < c.tMeasureMax) && c.doubleSample
  | .hold => decide (b.cnt < c.tHoldMax)
  | .disf => decide (1 ≤ b.rem) && decide (b.rem ≤ c.tDischarge)

/-- A sample is absent or in 1..T_MEASURE_MAX (R217, R218). -/
def sampleOk (c : Config) : Option Nat → Bool
  | none => true
  | some v => decide (1 ≤ v) && decide (v ≤ c.tMeasureMax)

/-- BD between boundaries: counters and samples in range, the pin modes those of R212 or of the reset interval (R39), and
GND_REF as R40 says. -/
abbrev Bd.Inv (c : Config) (b : Bd) : Prop :=
  bdCountOk c b = true ∧ sampleOk c b.s1 = true ∧ sampleOk c b.s2 = true ∧
    ((b.key0 = keyMode b.phase b.line .l0 ∧ b.key1 = keyMode b.phase b.line .l1) ∨
      (b.phase = .idle ∧ b.key0 = .inPulldown ∧ b.key1 = .inPulldown)) ∧
    b.gndRef = gndRefMode c

/-- R210, R214, R230: the armed bits follow the pin modes; in IDLE nothing is pending; the serviced line is never
pending. -/
abbrev State.EdgesOk (s : State) : Prop :=
  s.edge0.armedPrev = decide (s.bd.key0 = .inPulldownIrq) ∧ s.edge1.armedPrev = decide (s.bd.key1 = .inPulldownIrq) ∧
    (s.bd.phase = .idle → s.edge0.pending = false ∧ s.edge1.pending = false) ∧ (s.edge s.bd.line).pending = false

/-- The invariant of the block: it holds at reset and every step keeps it. -/
abbrev State.Inv (s : State) : Prop :=
  s.cfg.wf = true ∧ s.clock.InRange ∧ s.status.Consistent ∧ lastSampleOk s.lastSample ∧ s.fifo.length ≤ s.cfg.evtDepth ∧
    s.mx.Inv s.cfg ∧ s.sr.Inv s.cfg ∧ s.pw.Inv s.cfg ∧ s.bd.Inv s.cfg ∧ s.EdgesOk

/-! ### Commands as the rules describe them -/

/-- s with one more response word w, given at the current boundary (R83); the other fields are as they were. -/
def State.answered (s : State) (w : Word) : State :=
  { s with world := { s.world with responses := (s.world.now, w) :: s.world.responses } }

/-- s after a rejection with cause code c, as R300 puts it: BADCMD 1, the first cause kept, response 0x00000000. -/
def State.rejected (s : State) (c : BitVec 4) : State :=
  { s with status := { s.status with badcmd := true, cause := if s.status.badcmd then s.status.cause else c } }.answered 0

/-- The data is among the "legal write values" of the command's register (10_state.md section 2); a read has none. -/
def dataLegal : Instr → Bool
  | .rdHours | .rdMinutes | .rdHasAlarm | .rdAlarmEnabled | .rdError | .rdRegularDim | .rdCeilingDim | .rdRefreshRate
  | .rdCeilingUp | .rdStatus | .rdEvent | .rdLastSample | .rdPressDuration => true
  | .wrHours d => decide (d.toNat ≤ 23)
  | .wrMinutes d => decide (d.toNat ≤ 59)
  | .wrHasAlarm d => decide (d.toNat ≤ 1)
  | .wrAlarmEnabled d => decide (d.toNat ≤ 1)
  | .wrError d => decide (d.toNat ≤ 255)
  | .wrRegularDim d => decide (d.toNat ≤ 100)
  | .wrCeilingDim d => decide (d.toNat ≤ 100)
  | .wrRefreshRate d => decide (1 ≤ d.toNat) && decide (d.toNat ≤ 142857)
  | .wrCeilingUp d => decide (d.toNat ≤ 1)
  | .wrStatus d => decide (d.toNat < 16)

/-- The code of the cause for which a word is rejected, or none for a word that is accepted (R82, R260, R301). -/
def rejectCode (w : Word) : Option (BitVec 4) :=
  match decode w with
  | .reject c => some (causeCode c)
  | .cmd i => if dataLegal i then none else some 4

/-- The read command of a register (R261 to R273). -/
def readOf : Reg → Instr
  | .hours => .rdHours
  | .minutes => .rdMinutes
  | .hasAlarm => .rdHasAlarm
  | .alarmEnabled => .rdAlarmEnabled
  | .error => .rdError
  | .regularDim => .rdRegularDim
  | .ceilingDim => .rdCeilingDim
  | .refreshRate => .rdRefreshRate
  | .ceilingUp => .rdCeilingUp
  | .status => .rdStatus
  | .event => .rdEvent
  | .lastSample => .rdLastSample
  | .pressDuration => .rdPressDuration

/-- The register a write names; none for a read. -/
def writeTarget : Instr → Option Reg
  | .rdHours | .rdMinutes | .rdHasAlarm | .rdAlarmEnabled | .rdError | .rdRegularDim | .rdCeilingDim | .rdRefreshRate
  | .rdCeilingUp | .rdStatus | .rdEvent | .rdLastSample | .rdPressDuration => none
  | .wrHours _ => some .hours
  | .wrMinutes _ => some .minutes
  | .wrHasAlarm _ => some .hasAlarm
  | .wrAlarmEnabled _ => some .alarmEnabled
  | .wrError _ => some .error
  | .wrRegularDim _ => some .regularDim
  | .wrCeilingDim _ => some .ceilingDim
  | .wrRefreshRate _ => some .refreshRate
  | .wrCeilingUp _ => some .ceilingUp
  | .wrStatus _ => some .status

/-- The nine registers of the Clock State (R21 to R29), which the host alone writes. -/
def Reg.inClock : Reg → Bool
  | .hours | .minutes | .hasAlarm | .alarmEnabled | .error | .regularDim | .ceilingDim | .refreshRate | .ceilingUp => true
  | .status | .event | .lastSample | .pressDuration => false

/-- Every word of the row with this `match` value decodes to the command i (R85: the mask of every row is 0xFF000000). -/
def RowDecodes (matchWord : Word) (i : Instr) : Prop :=
  ∀ w : Word, w &&& 0xFF000000#32 = matchWord → decode w = .cmd i

/-- Every word of the row with this `match` value decodes to the write command with the word's DATA (R85). -/
def RowDecodesWith (matchWord : Word) (i : Data → Instr) : Prop :=
  ∀ w : Word, w &&& 0xFF000000#32 = matchWord → decode w = .cmd (i (w.setWidth 24))

/-! ### The units' steps on the whole state (R67 step (3)) -/

/-- MX's step. -/
def unitMx (s : State) : Option State := (mxStep s.cfg s.clock s.mx).map s.setMx

/-- SR's step. -/
def unitSr (s : State) : Option State := (srStep s.cfg s.clock s.sr).map s.setSr

/-- PW's step. -/
def unitPw (s : State) : Option State := (pwStep s.cfg s.clock s.pw).map s.setPw

/-- BD's step. -/
def unitBd (s : State) : Option State := some (bdStep s)

/-- The units one after another, in the order of the list. -/
def runUnits : List (State → Option State) → State → Option State
  | [], s => some s
  | u :: rest, s =>
    match u s with
    | some t => runUnits rest t
    | none => none

/-! ### Runs -/

/-- n boundaries of MX alone, the Clock State at boundary j being clk j (R145). -/
def mxRun (c : Config) (clk : Nat → Clock) : Nat → Mx → Option Mx
  | 0, m => some m
  | n + 1, m =>
    match mxRun c clk n m with
    | some m' => mxStep c (clk n) m'
    | none => none

/-- n boundaries of SR alone, watched by a receiver (R176, R183). -/
def srRun (c : Config) (clk : Nat → Clock) : Nat → Sr × Receiver → Option (Sr × Receiver)
  | 0, x => some x
  | n + 1, x =>
    match srRun c clk n x with
    | some (r, v) =>
      match srStep c (clk n) r with
      | some r' => some (r', v.watchSr r')
      | none => none
    | none => none

/-- n boundaries of SR alone, nobody watching (R176). -/
def srAlone (c : Config) (clk : Nat → Clock) : Nat → Sr → Option Sr
  | 0, r => some r
  | n + 1, r =>
    match srAlone c clk n r with
    | some r' => srStep c (clk n) r'
    | none => none

/-- n boundaries of PW alone (R187). -/
def pwRun (c : Config) (clk : Nat → Clock) : Nat → Pw → Option Pw
  | 0, p => some p
  | n + 1, p =>
    match pwRun c clk n p with
    | some p' => pwStep c (clk n) p'
    | none => none

/-- n ticks of the whole block, no command and no reset in between. -/
def runTicks : Nat → State → Option State
  | 0, s => some s
  | n + 1, s =>
    match runTicks n s with
    | some t =>
      match tick t with
      | .next t' => some t'
      | .fault _ => none
      | .refused _ => none
    | none => none

/-! ### Positions in a run -/

/-- MX leaves START at the coming boundary: at reset, or at the end of a cycle (R143, R148). -/
def mxLeavesStart (m : Mx) : Bool :=
  decide (m.rem ≤ 1) &&
    match m.phase with
    | .start => true
    | .pause => true
    | .col i => decide (i.val = 6) && decide (m.pause = 0)

/-- SR leaves START at the coming boundary: at reset, or at the end of a transmission (R175, R181). -/
def srLeavesStart (r : Sr) : Bool :=
  decide (r.rem ≤ 1) &&
    match r.phase with
    | .start => true
    | .idle => true
    | .gap s => decide (s.val = 3) && decide (r.idle = 0)
    | .latchLow _ => false
    | .clkLow _ _ => false
    | .clkHigh _ _ => false

/-- The sequence a phase of SR belongs to (R174); none in START and IDLE. -/
def srSeqOf : SrPhase → Option (Fin 4)
  | .start => none
  | .latchLow s => some s
  | .clkLow s _ => some s
  | .clkHigh s _ => some s
  | .gap s => some s
  | .idle => none

/-- PW leaves START at the coming boundary: at reset, or at the end of a period (R187). -/
def pwLeavesStart (p : Pw) : Bool :=
  decide (p.rem ≤ 1) &&
    match p.phase with
    | .start => true
    | .low => true
    | .high => decide (p.low = 0)

/-- The next step is a tick: RESET is not asserted and no command is left at this boundary (R67). -/
def State.tickIsNext (s : State) : Bool := !s.resetAsserted && s.nextCmd.isNone

/-- BD is in the press's last measurement pass (R220). -/
def inLastPass (s : State) : Bool :=
  decide (s.bd.phase = .meas2) || (decide (s.bd.phase = .meas1) && !s.cfg.doubleSample)

/-- The next step is a tick at which BD classifies (R217, R220). -/
def classifiesNext (s : State) : Bool :=
  s.tickIsNext && inLastPass s && (pollSample s.cfg (s.bd.cnt + 1) (s.level s.bd.line)).isSome

/-- A tick from s to t changed none of the registers BD writes (R210). -/
abbrev bdRegsKept (s t : State) : Prop :=
  t.fifo = s.fifo ∧ t.status = s.status ∧ t.lastSample = s.lastSample ∧ t.pressDuration = s.pressDuration

/-- A tick from s to t took no latched edge: the pending bits are those the edge detectors left (R213). -/
abbrev pendingKept (s t : State) : Prop := ∀ l : Line, (t.edge l).pending = ((edgeDetect s).edge l).pending

/-- What `idle_check()` does at a tick from s to t (R214, R225), the edge detectors having run: the edge of line 0 is taken, else
that of line 1, the line taken is no longer pending and the other's bit stays; with none BD rests in IDLE. -/
abbrev idleChecked (s t : State) : Prop :=
  (((edgeDetect s).edge .l0).pending = true → t.bd.phase = .debounce ∧ t.bd.line = .l0 ∧ t.bd.rem = s.cfg.tDebounce ∧
    t.edge0.pending = false ∧ t.edge1.pending = ((edgeDetect s).edge .l1).pending) ∧
  (((edgeDetect s).edge .l0).pending = false → ((edgeDetect s).edge .l1).pending = true →
    t.bd.phase = .debounce ∧ t.bd.line = .l1 ∧ t.bd.rem = s.cfg.tDebounce ∧ t.edge1.pending = false ∧
    t.edge0.pending = false) ∧
  (((edgeDetect s).edge .l0).pending = false → ((edgeDetect s).edge .l1).pending = false →
    t.bd.phase = .idle ∧ t.bd.line = s.bd.line ∧ pendingKept s t)

/-- R340 `T_MIN_PUSH`. -/
def tMinPush (c : Config) : Nat :=
  if c.doubleSample then 1 + 3 * c.tDischarge + c.tDebounce + 2 else 1 + 2 * c.tDischarge + c.tDebounce + 1

/-- The key level of line l at boundary k, as this state's record of the world gives it (R211). -/
def State.levelAt (s : State) (k : Nat) (l : Line) : Bool := (s.setWorld { s.world with now := k }).level l

/-- R218: a measurement pass of line l whose MEAS phase is entered at boundary b gives sample x (none: absent) and ends at
boundary b + d: x is the first count in 1..T_MEASURE_MAX at which the level is 1. -/
def State.passGives (s : State) (l : Line) (b d : Nat) (x : Option Nat) : Prop :=
  1 ≤ d ∧ d ≤ s.cfg.tMeasureMax ∧ (∀ j, 0 < j → j < d → s.levelAt (b + j) l = false) ∧
    ((s.levelAt (b + d) l = true ∧ x = some d) ∨
      (s.levelAt (b + d) l = false ∧ d = s.cfg.tMeasureMax ∧ x = none))

/-- BD in IDLE takes an edge of line l at the coming boundary: the edge is pending once the detectors have run, and line 0
has none when l is line 1 (R213, R214). -/
def State.servesNext (s : State) (l : Line) : Bool :=
  decide (s.bd.phase = .idle) && ((edgeDetect s).edge l).pending &&
    match l with
    | .l0 => true
    | .l1 => !(edgeDetect s).edge0.pending

end Sys2Proof.Machine
end

