-- ==== Sys2Proof/Certificates/Slice0/Obligations.lean ====
section
/-! DEFINITION. The statements for the provers, one def Obligations.<Name> : Prop each; OBLIGATIONS.json gives their tier,
kind and the rules of spec/ they rest on. -/

open Sys2Proof Sys2Proof.Machine

/-! ### Words and commands -/

/-- R85: a word of a row decodes to the row's command, a word of no row is rejected, and the 23 rows differ. -/
def Obligations.DecodeFollowsTheOpcodeMap : Prop :=
  (∀ w : Word, ∀ row ∈ opcodeMap, w &&& 0xFF000000#32 = row.1 → decode w = .cmd (row.2 (w.setWidth 24))) ∧
    (∀ w : Word, (∀ row ∈ opcodeMap, w &&& 0xFF000000#32 ≠ row.1) → ∃ c, decode w = .reject c) ∧
    opcodeMap.length = 23 ∧ (opcodeMap.map Prod.fst).Nodup

/-- R302: the cause reported is the first that applies, in the order 1, 2, 3, 4; several commands at one boundary are each checked
and rejected, in issue order, and only the first rejection since the last clear sets BADCMD_CAUSE. -/
def Obligations.RejectionCausePriority : Prop :=
  (∀ w : Word, w.extractLsb' 28 3 ≠ 0 → rejectCode w = some 1) ∧
    (∀ w : Word, w.extractLsb' 28 3 = 0 → 13 ≤ (w.extractLsb' 24 4).toNat → rejectCode w = some 2) ∧
    (∀ w : Word, w.extractLsb' 28 3 = 0 → w.getLsbD 31 = true → 10 ≤ (w.extractLsb' 24 4).toNat →
      (w.extractLsb' 24 4).toNat ≤ 12 → rejectCode w = some 3) ∧
    (∀ (w : Word) (i : Instr), decode w = .cmd i → dataLegal i = false → rejectCode w = some 4) ∧
    rejectCode 0x9D000000 = some 1 ∧ rejectCode 0x8D000000 = some 2 ∧ rejectCode 0x8A000005 = some 3 ∧
    rejectCode 0x80000018 = some 4 ∧
    ∀ (s : State) (w₁ w₂ : Word) (rest : List (Nat × Word)) (c₁ c₂ : BitVec 4), s.resetAsserted = false →
      s.world.cmds = (s.world.now, w₁) :: (s.world.now, w₂) :: rest → rejectCode w₁ = some c₁ → rejectCode w₂ = some c₂ →
      ∃ t : State, Host.Core.run Sys2Proof.core 2 s = .next t ∧
        t = State.rejected (State.rejected { s with world := { s.world with cmds := rest } } c₁) c₂ ∧
        t.status.cause = if s.status.badcmd then s.status.cause else c₁

/-- Decoding the word of a command gives the command back, every operand at every value. -/
def Obligations.EncodeThenDecodeIsIdentity : Prop := ∀ i : Instr, decode (encode i) = .cmd i

/-- Encoding what a word decodes to gives the word back, a read's ignored DATA cleared (R84). -/
def Obligations.DecodeThenEncodeRecoversTheWord : Prop :=
  ∀ (w : Word) (i : Instr), decode w = .cmd i → encode i = if w.getLsbD 31 then w else w &&& 0xFF000000#32

/-- R87, R89: disassembly is the inverse of assembly on the rows of the opcode map, a read's DATA left out; every other word prints
as `.word` of itself. (The printed text is log 17's.) -/
def Obligations.DisassemblyInvertsAssembly : Prop :=
  (∀ i : Instr, disassemble (encode i) = opOfInstr i ∧ assembleOp (opOfInstr i) = encode i) ∧
    (∀ (w : Word) (i : Instr), decode w = .cmd i →
      assembleOp (disassemble w) = if w.getLsbD 31 then w else w &&& 0xFF000000#32) ∧
    (∀ (w : Word) (c : Cause), decode w = .reject c → disassemble w = .word w ∧ assembleOp (disassemble w) = w)

/-- Words written out from R85's map and the vectors of 95_test_vectors.md section 7.1. -/
def Obligations.SampleWordsDecode : Prop :=
  decode 0x00FFFFFF = .cmd .rdHours ∧ decode 0x0A000000 = .cmd .rdEvent ∧ decode 0x0C000000 = .cmd .rdPressDuration ∧
    decode 0x80000017 = .cmd (.wrHours 23) ∧ decode 0x87022E09 = .cmd (.wrRefreshRate 142857) ∧
    decode 0x8900000F = .cmd (.wrStatus 15) ∧ decode 0x0D000000 = .reject .badAddr ∧ decode 0x10000000 = .reject .rsvBits

/-! ### The step -/

/-- A step runs the decoded command: with RESET not asserted and w the next command of the boundary, the step is the
command's meaning on the state that has w taken off. -/
def Obligations.StepRunsTheDecodedCommand : Prop :=
  ∀ (s : State) (w : Word) (rest : List (Nat × Word)) (i : Instr), s.resetAsserted = false →
    s.nextCmd = some (w, rest) → decode w = .cmd i → step s = exec i { s with world := { s.world with cmds := rest } }

/-- The commands of one boundary run in issue order, and only they (R67 step (1), R260). -/
def Obligations.CommandsRunInIssueOrder : Prop :=
  (∀ (s : State) (a b : List (Nat × Word)) (w : Word), s.world.cmds = a ++ (s.world.now, w) :: b →
      (∀ p ∈ a, p.1 ≠ s.world.now) → s.nextCmd = some (w, a ++ b)) ∧
    (∀ s : State, (∀ p ∈ s.world.cmds, p.1 ≠ s.world.now) → s.resetAsserted = false → step s = tick s)

/-- R300: a rejected command, whether its word does not decode or its data is illegal, sets BADCMD, keeps the first cause,
answers 0x00000000 and changes nothing else, the interrupt line included. -/
def Obligations.RejectionChangesOnlyStatus : Prop :=
  ∀ (s : State) (w : Word) (rest : List (Nat × Word)) (c : BitVec 4), s.resetAsserted = false →
    s.nextCmd = some (w, rest) → rejectCode w = some c → 1 ≤ c.toNat ∧ c.toNat ≤ 4 ∧
      ∃ t : State, step s = .next t ∧ t = State.rejected { s with world := { s.world with cmds := rest } } c ∧
        t.status.badcmd = true ∧ t.status.cause = (if s.status.badcmd then s.status.cause else c) ∧
        t.world.responses = (s.world.now, 0x00000000) :: s.world.responses ∧ t.evtIrq = s.evtIrq

/-- R330: a boundary under RESET puts every piece of state at its reset value, takes and answers no command, and ignores the
key levels; the configuration stays and time goes on. -/
def Obligations.ResetForcesEveryResetValue : Prop :=
  ∀ s : State, s.resetAsserted = true →
    step s = .next { State.resetWith s.cfg with world := { s.world with now := s.world.now + 1 } }

/-- The values right after reset, from R332; that the idle time of SR's empty snapshot is 0 is the model's choice (log 21). -/
def Obligations.ResetValues : Prop :=
  ∀ c : Config, ∃ s : State, s = State.resetWith c ∧ (c = Config.chip.cfg → s = State.reset) ∧
    s.clock.hours = 88 ∧ s.clock.minutes = 88 ∧ s.clock.hasAlarm = false ∧ s.clock.alarmEnabled = false ∧
    s.clock.error = 0 ∧ s.clock.regularDim = 50 ∧ s.clock.ceilingDim = 50 ∧ s.clock.refreshRate = c.resetRefreshRate ∧
    s.clock.ceilingUp = c.resetCeilingUp ∧ statusWord s.status s.fifo.length = 0 ∧ s.lastSample = 0 ∧
    s.pressDuration = 0 ∧ s.fifo = [] ∧
    (∀ j < 7, s.mx.row.getLsbD j = !c.rowActive) ∧ (∀ j < 7, s.mx.col.getLsbD j = !c.colActive) ∧
    s.pw.enLine = !c.enActive ∧ s.sr.latchLine = true ∧ s.sr.clkLine = true ∧ s.sr.dataLine = false ∧
    s.bd.key0 = .inPulldown ∧ s.bd.key1 = .inPulldown ∧
    (c.hasGndRef = true → s.bd.gndRef = some .outLow) ∧ (c.hasGndRef = false → s.bd.gndRef = none) ∧ s.evtIrq = false ∧
    s.mx.phase = .start ∧ s.mx.rem = 0 ∧ s.mx.pat = #v[0, 0, 0, 0, 0, 0, 0] ∧ s.mx.colOn = 0 ∧ s.mx.pause = 0 ∧
    s.sr.phase = .start ∧ s.sr.rem = 0 ∧ s.sr.data = false ∧ s.sr.seq = #v[[], [], [], []] ∧ s.sr.idle = 0 ∧
    s.pw.phase = .start ∧ s.pw.rem = 0 ∧ s.pw.low = 0 ∧
    s.bd.phase = .idle ∧ s.bd.line = .l0 ∧ s.bd.rem = 0 ∧ s.bd.cnt = 0 ∧ s.bd.s1 = none ∧ s.bd.s2 = none ∧
    (∀ l, (s.edge l).pending = false ∧ (s.edge l).prev = false ∧ (s.edge l).armedPrev = false)

/-- R6, R336: an ill-formed configuration is refused before any step, a well-formed one starts at reset, the block's own
configuration is well formed, and no step changes the configuration. -/
def Obligations.OnlyWellFormedConfigsStart : Prop :=
  (∀ c : Config, c.wf = true → State.start c = .next (State.resetWith c)) ∧
    (∀ c : Config, c.wf = false → State.start c = .refused .illFormedConfig) ∧ State.reset.cfg.wf = true ∧
    (∀ s t : State, step s = .next t → t.cfg = s.cfg)

/-! ### Reads -/

/-- R263 to R269 (and the operation of R261, R262): a read answers ACK and the stored value, its DATA ignored, and changes
nothing but the record of responses. -/
def Obligations.ClockReadsAnswerTheRegister : Prop :=
  (RowDecodes 0x00000000 .rdHours ∧
    ∀ s : State, exec .rdHours s = .next (s.answered (BitVec.ofNat 32 (2 ^ 31 + s.clock.hours.toNat)))) ∧
  (RowDecodes 0x01000000 .rdMinutes ∧
    ∀ s : State, exec .rdMinutes s = .next (s.answered (BitVec.ofNat 32 (2 ^ 31 + s.clock.minutes.toNat)))) ∧
  (RowDecodes 0x02000000 .rdHasAlarm ∧
    ∀ s : State, exec .rdHasAlarm s = .next (s.answered (BitVec.ofNat 32 (2 ^ 31 + s.clock.hasAlarm.toNat)))) ∧
  (RowDecodes 0x03000000 .rdAlarmEnabled ∧
    ∀ s : State, exec .rdAlarmEnabled s = .next (s.answered (BitVec.ofNat 32 (2 ^ 31 + s.clock.alarmEnabled.toNat)))) ∧
  (RowDecodes 0x04000000 .rdError ∧
    (∀ s : State, exec .rdError s = .next (s.answered (BitVec.ofNat 32 (2 ^ 31 + s.clock.error.toNat)))) ∧
    ∀ c : Config, rightIcons c 200 = rightIcons c 15) ∧
  (RowDecodes 0x05000000 .rdRegularDim ∧
    ∀ s : State, exec .rdRegularDim s = .next (s.answered (BitVec.ofNat 32 (2 ^ 31 + s.clock.regularDim.toNat)))) ∧
  (RowDecodes 0x06000000 .rdCeilingDim ∧
    ∀ s : State, exec .rdCeilingDim s = .next (s.answered (BitVec.ofNat 32 (2 ^ 31 + s.clock.ceilingDim.toNat)))) ∧
  (RowDecodes 0x07000000 .rdRefreshRate ∧
    (∀ s : State, exec .rdRefreshRate s = .next (s.answered (BitVec.ofNat 32 (2 ^ 31 + s.clock.refreshRate.toNat)))) ∧
    ∀ s : State, s.Inv → s.clock.refreshRate.toNat ≠ 0) ∧
  (RowDecodes 0x08000000 .rdCeilingUp ∧
    ∀ s : State, exec .rdCeilingUp s = .next (s.answered (BitVec.ofNat 32 (2 ^ 31 + s.clock.ceilingUp.toNat)))) ∧
  exec .rdHours State.reset = .next (State.reset.answered 0x80000058) ∧
  exec .rdMinutes State.reset = .next (State.reset.answered 0x80000058) ∧
  exec .rdHasAlarm State.reset = .next (State.reset.answered 0x80000000) ∧
  exec .rdRegularDim State.reset = .next (State.reset.answered 0x80000032) ∧
  exec .rdCeilingDim State.reset = .next (State.reset.answered 0x80000032) ∧
  exec .rdRefreshRate (State.resetWith .rc0) = .next ((State.resetWith .rc0).answered 0x80000064) ∧
  exec .rdCeilingUp (State.resetWith .rc0) = .next ((State.resetWith .rc0).answered 0x80000000)

/-- R270: RD STATUS answers the sticky bits, EVT_NONEMPTY, EVT_COUNT and BADCMD_CAUSE, and clears nothing. -/
def Obligations.StatusReadAnswersEveryField : Prop :=
  RowDecodes 0x09000000 .rdStatus ∧
    (∀ s : State, s.fifo.length ≤ 15 →
      exec .rdStatus s = .next (s.answered (BitVec.ofNat 32 (2 ^ 31 + s.status.badcmd.toNat + 2 * s.status.evtOvf.toNat +
        4 * s.status.noMatch.toNat + 8 * s.status.noSample.toNat + 16 * (decide (0 < s.fifo.length)).toNat +
        256 * s.fifo.length + 4096 * s.status.cause.toNat)))) ∧
    exec .rdStatus State.reset = .next (State.reset.answered 0x80000000)

/-- R271: RD EVENT answers and removes the oldest entry; on an empty FIFO it answers VALID = 0 and removes nothing; EVT_IRQ
follows the entries left; the button codes are R228's, 0 to 8 in its order. -/
def Obligations.EventReadPopsTheOldest : Prop :=
  RowDecodes 0x0A000000 .rdEvent ∧
    (∀ s : State, s.fifo = [] → exec .rdEvent s = .next (s.answered 0x80000000)) ∧
    (∀ (s : State) (e : Event) (rest : List Event), s.fifo = e :: rest → ∃ t : State, exec .rdEvent s = .next t ∧
      t = { s with fifo := rest }.answered
        (BitVec.ofNat 32 (2 ^ 31 + (buttonCode e.button).toNat + 16 + 32 * (lineBit e.line).toNat)) ∧
      t.evtIrq = !rest.isEmpty) ∧
    [Button.snooze, .b1, .b2, .time, .volumeDown, .volumeUp, .left, .right, .power].map (fun b => (buttonCode b).toNat) =
      List.range 9

/-- R272, R273: the diagnostic registers are read as stored. -/
def Obligations.DiagnosticReadsAnswerTheRegister : Prop :=
  (RowDecodes 0x0B000000 .rdLastSample ∧
    ∀ s : State, exec .rdLastSample s = .next (s.answered (BitVec.ofNat 32 (2 ^ 31 + s.lastSample.toNat)))) ∧
  (RowDecodes 0x0C000000 .rdPressDuration ∧
    ∀ s : State, exec .rdPressDuration s = .next (s.answered (BitVec.ofNat 32 (2 ^ 31 + s.pressDuration.toNat)))) ∧
  exec .rdLastSample State.reset = .next (State.reset.answered 0x80000000) ∧
  exec .rdPressDuration State.reset = .next (State.reset.answered 0x80000000)

/-! ### Writes -/

/-- R274, R275 (operation, encoding, rejection): WR HOURS and WR MINUTES. -/
def Obligations.TimeWritesStoreOrReject : Prop :=
  (RowDecodesWith 0x80000000 .wrHours ∧
    (∀ (s : State) (d : Data), d.toNat ≤ 23 → exec (.wrHours d) s =
      .next ({ s with clock := { s.clock with hours := BitVec.ofNat 7 d.toNat } }.answered 0x80000000)) ∧
    (∀ (s : State) (d : Data), 23 < d.toNat → exec (.wrHours d) s = .next (s.rejected 4))) ∧
  (RowDecodesWith 0x81000000 .wrMinutes ∧
    (∀ (s : State) (d : Data), d.toNat ≤ 59 → exec (.wrMinutes d) s =
      .next ({ s with clock := { s.clock with minutes := BitVec.ofNat 7 d.toNat } }.answered 0x80000000)) ∧
    (∀ (s : State) (d : Data), 59 < d.toNat → exec (.wrMinutes d) s = .next (s.rejected 4)))

/-- R276 (and the operation of R277, R282): the one-bit registers accept 0 and 1 and reject every other value, without
truncating it. -/
def Obligations.FlagWritesStoreOrReject : Prop :=
  (RowDecodesWith 0x82000000 .wrHasAlarm ∧
    (∀ (s : State) (d : Data), d.toNat ≤ 1 → exec (.wrHasAlarm d) s =
      .next ({ s with clock := { s.clock with hasAlarm := decide (d.toNat = 1) } }.answered 0x80000000)) ∧
    (∀ (s : State) (d : Data), 1 < d.toNat → exec (.wrHasAlarm d) s = .next (s.rejected 4))) ∧
  (RowDecodesWith 0x83000000 .wrAlarmEnabled ∧
    (∀ (s : State) (d : Data), d.toNat ≤ 1 → exec (.wrAlarmEnabled d) s =
      .next ({ s with clock := { s.clock with alarmEnabled := decide (d.toNat = 1) } }.answered 0x80000000)) ∧
    (∀ (s : State) (d : Data), 1 < d.toNat → exec (.wrAlarmEnabled d) s = .next (s.rejected 4))) ∧
  (RowDecodesWith 0x88000000 .wrCeilingUp ∧
    (∀ (s : State) (d : Data), d.toNat ≤ 1 → exec (.wrCeilingUp d) s =
      .next ({ s with clock := { s.clock with ceilingUp := decide (d.toNat = 1) } }.answered 0x80000000)) ∧
    (∀ (s : State) (d : Data), 1 < d.toNat → exec (.wrCeilingUp d) s = .next (s.rejected 4)))

/-- R278: WR ERROR stores 0..255 raw and rejects the rest; what is shown is clamped to 15. -/
def Obligations.ErrorWriteStoresRaw : Prop :=
  RowDecodesWith 0x84000000 .wrError ∧
    (∀ (s : State) (d : Data), d.toNat ≤ 255 → exec (.wrError d) s =
      .next ({ s with clock := { s.clock with error := BitVec.ofNat 8 d.toNat } }.answered 0x80000000)) ∧
    (∀ (s : State) (d : Data), 255 < d.toNat → exec (.wrError d) s = .next (s.rejected 4)) ∧
    (∀ (c : Config) (e : BitVec 8), 15 ≤ e.toNat → rightIcons c e = rightIcons c 15)

/-- R279, R280 (operation, encoding, rejection), with R279's end points: dim 0 leaves no column slot, dim 100 no pause. -/
def Obligations.DimWritesStoreOrReject : Prop :=
  (RowDecodesWith 0x85000000 .wrRegularDim ∧
    (∀ (s : State) (d : Data), d.toNat ≤ 100 → exec (.wrRegularDim d) s =
      .next ({ s with clock := { s.clock with regularDim := BitVec.ofNat 7 d.toNat } }.answered 0x80000000)) ∧
    (∀ (s : State) (d : Data), 100 < d.toNat → exec (.wrRegularDim d) s = .next (s.rejected 4)) ∧
    ∀ rate : Nat, (pwmTiming rate 0).colOn = 0 ∧ (pwmTiming rate 100).pause = 0) ∧
  (RowDecodesWith 0x86000000 .wrCeilingDim ∧
    (∀ (s : State) (d : Data), d.toNat ≤ 100 → exec (.wrCeilingDim d) s =
      .next ({ s with clock := { s.clock with ceilingDim := BitVec.ofNat 7 d.toNat } }.answered 0x80000000)) ∧
    (∀ (s : State) (d : Data), 100 < d.toNat → exec (.wrCeilingDim d) s = .next (s.rejected 4)))

/-- R281 (operation, encoding, rejection): WR REFRESH_RATE accepts 1..142857; 0 and everything above is rejected. -/
def Obligations.RateWriteStoresOrRejects : Prop :=
  RowDecodesWith 0x87000000 .wrRefreshRate ∧
    (∀ (s : State) (d : Data), 1 ≤ d.toNat → d.toNat ≤ 142857 → exec (.wrRefreshRate d) s =
      .next ({ s with clock := { s.clock with refreshRate := BitVec.ofNat 18 d.toNat } }.answered 0x80000000)) ∧
    (∀ (s : State) (d : Data), d.toNat = 0 ∨ 142857 < d.toNat → exec (.wrRefreshRate d) s = .next (s.rejected 4))

/-- R283: WR STATUS clears each sticky bit whose data bit is 1, BADCMD_CAUSE with BADCMD; data with any of bits 23:4 set is
rejected, and so sets BADCMD. -/
def Obligations.StatusWriteClearsOnOnes : Prop :=
  RowDecodesWith 0x89000000 .wrStatus ∧
    (∀ (s : State) (d : Data), d.toNat < 16 → ∃ t : State, exec (.wrStatus d) s = .next (t.answered 0x80000000) ∧
      t = { s with status := t.status } ∧
      t.status.badcmd = (s.status.badcmd && !d.getLsbD 0) ∧ t.status.evtOvf = (s.status.evtOvf && !d.getLsbD 1) ∧
      t.status.noMatch = (s.status.noMatch && !d.getLsbD 2) ∧ t.status.noSample = (s.status.noSample && !d.getLsbD 3) ∧
      t.status.cause = if d.getLsbD 0 then 0 else s.status.cause) ∧
    (∀ (s : State) (d : Data), 16 ≤ d.toNat → exec (.wrStatus d) s = .next (s.rejected 4)) ∧
    (∀ (s : State), ∃ t : State, exec (.wrStatus 0x11) s = .next t ∧ t.status.badcmd = true)

/-- R284: the frame of every command, which always completes. A read changes only the FIFO, and only RD EVENT does; an
accepted write changes only its own register (WR STATUS only the sticky bits and the cause); a rejected command only BADCMD
and, when BADCMD was 0, BADCMD_CAUSE. No command changes a pin, a unit, an edge detector or the configuration, and each gives
one response. -/
def Obligations.CommandFrame : Prop :=
  ∀ (i : Instr) (s : State), ∃ t : State, exec i s = .next t ∧
    t.cfg = s.cfg ∧ t.mx = s.mx ∧ t.sr = s.sr ∧ t.pw = s.pw ∧ t.bd = s.bd ∧ t.edge0 = s.edge0 ∧ t.edge1 = s.edge1 ∧
    t.lastSample = s.lastSample ∧ t.pressDuration = s.pressDuration ∧
    (∃ w : Word, t.world = { s.world with responses := (s.world.now, w) :: s.world.responses } ∧
      w.getLsbD 31 = dataLegal i) ∧
    (writeTarget i = none → t.clock = s.clock ∧ t.status = s.status ∧ (i ≠ .rdEvent → t.fifo = s.fifo) ∧
      (i = .rdEvent → t.fifo = s.fifo.tail)) ∧
    (writeTarget i ≠ none → dataLegal i = true → t.fifo = s.fifo ∧ (writeTarget i ≠ some .status → t.status = s.status) ∧
      ∀ r : Reg, writeTarget i ≠ some r → t.regValue r = s.regValue r) ∧
    (dataLegal i = false → t.clock = s.clock ∧ t.fifo = s.fifo ∧
      t.status = { s.status with badcmd := true, cause := if s.status.badcmd then s.status.cause else 4 })

/-- R285: a Clock State register, once written, holds the value written, a read answers what it holds, and only an accepted write of
it (or RESET) changes it at any step. -/
def Obligations.WrittenValueStaysUntilTheNextWrite : Prop :=
  (∀ (i : Instr) (r : Reg) (s t : State), writeTarget i = some r → r.inClock = true → dataLegal i = true →
      exec i s = .next t → t.regValue r = fieldData (encode i)) ∧
    (∀ (s t : State) (r : Reg), r.inClock = true → s.resetAsserted = false → step s = .next t →
      t.regValue r ≠ s.regValue r → ∃ (w : Word) (rest : List (Nat × Word)) (i : Instr), s.nextCmd = some (w, rest) ∧
        decode w = .cmd i ∧ writeTarget i = some r ∧ dataLegal i = true) ∧
    (∀ (s : State) (r : Reg), r.inClock = true →
      exec (readOf r) s = .next (s.answered (BitVec.ofNat 32 (2 ^ 31 + (s.regValue r).toNat))))

/-! ### STATUS, the FIFO and EVT_IRQ -/

/-- R41: EVT_IRQ is 1 exactly when the FIFO is non-empty, equals STATUS.EVT_NONEMPTY, and is 0 at reset. -/
def Obligations.EvtIrqIsFifoNonEmpty : Prop :=
  (∀ s : State, (s.evtIrq = true ↔ s.fifo ≠ []) ∧ s.evtIrq = (s.regValue .status).getLsbD 4) ∧
    State.reset.evtIrq = false

/-- R34: the FIFO is empty at reset, its codes are 0 to 8, BD appends at the tail below the depth, the host's RD EVENT removes from the
head, and nothing else but RESET changes it; its length stays within EVT_DEPTH. -/
def Obligations.FifoOnlyAppendsAndPops : Prop :=
  (∀ c : Config, (State.resetWith c).fifo = []) ∧ (∀ b : Button, (buttonCode b).toNat ≤ 8) ∧
  ∀ s t : State, step s = .next t → (s.fifo.length ≤ s.cfg.evtDepth → t.fifo.length ≤ s.cfg.evtDepth) ∧
    (t.fifo = s.fifo ∨
      (s.tickIsNext = true ∧ s.fifo.length < s.cfg.evtDepth ∧ ∃ e : Event, t.fifo = s.fifo ++ [e]) ∨
      (s.resetAsserted = false ∧ (∃ w rest, s.nextCmd = some (w, rest) ∧ decode w = .cmd .rdEvent) ∧
        ∃ e : Event, s.fifo = e :: t.fifo) ∨
      (s.resetAsserted = true ∧ t.fifo = []))

/-! ### The segment encoder -/

/-- R101, R102: the two digits of a value 0..99 and their glyphs; a digit above 9 is blank. -/
def Obligations.DigitsAndGlyphs : Prop :=
  (∀ v : Nat, v ≤ 99 → 10 * (digits v).1 + (digits v).2 = v ∧ (digits v).1 ≤ 9 ∧ (digits v).2 ≤ 9) ∧
    (∀ (c : Config) (d : Fin 10), glyph c d.val = c.seg[d]) ∧ (∀ (c : Config) (d : Nat), 10 ≤ d → glyph c d = c.segBlank)

/-- R104: the left icon column under both modes: the present bit is has_alarm, the disabled bit the mode's condition, the other
bits 0. -/
def Obligations.LeftIconBits : Prop :=
  ∀ (c : Config) (has en : Bool) (r : Nat), r < 7 →
    ((leftIcons c has en).getLsbD r = true ↔
      (r = c.iconPresentPos.val ∧ has = true) ∨
      (r = c.iconDisabledPos.val ∧ c.alarmDisabledMode = .notEnabled ∧ en = false) ∨
      (r = c.iconDisabledPos.val ∧ c.alarmDisabledMode = .presentAndNotEnabled ∧ has = true ∧ en = false))

/-- R105, R106: bit k of the clamped code lights row ERR_POS[k] and no other row is lit. -/
def Obligations.RightIconsShowTheClampedError : Prop :=
  ∀ (c : Config) (e : BitVec 8) (r : Nat), r < 7 →
    ((rightIcons c e).getLsbD r = true ↔ ∃ k : Fin 4, c.errPos[k].val = r ∧ (min e.toNat 15).testBit k.val = true)

/-- R109: wire bit j of a mangled group is the segment the selected table names, 0 at the sentinel 7, for any table; and when the
table is a permutation exactly one wire bit is always 0. -/
def Obligations.MangleRelocatesSegments : Prop :=
  (∀ (c : Config) (up : Bool) (seg : Pattern) (j : Fin 8),
      (mangle c up seg).getLsbD j.val =
        if (if up then c.mangleUp else c.mangleDown)[j].val = 7 then false
        else seg.getLsbD (if up then c.mangleUp else c.mangleDown)[j].val) ∧
    (∀ (c : Config) (up : Bool), (if up then c.mangleUp else c.mangleDown).toList.Nodup →
      ∃! j : Fin 8, ∀ seg : Pattern, (mangle c up seg).getLsbD j.val = false)

/-- R108, R110, R111: the four digit positions are tens and ones of hours, then of minutes; the two slot orders are each other's
reverse; and a flip of CEILING_UP puts the same logical glyph of each digit position in the mirrored slot under the other
table. -/
def Obligations.OrientationFlipMirrorsTheSlots : Prop :=
  (∀ k : Clock, (ceilingDigits k).toList =
    [k.hours.toNat / 10, k.hours.toNat % 10, k.minutes.toNat / 10, k.minutes.toNat % 10]) ∧
  (groupOrder true).toList = [0, 1, 2, 3] ∧ (groupOrder false).toList = (groupOrder true).toList.reverse ∧
    ∀ (c : Config) (k : Clock) (up : Bool) (j : Fin 4),
      (ceilingGroups c { k with ceilingUp := up })[j] =
        mangle c up (glyph c (ceilingDigits k)[if up then j else Fin.rev j])

/-- R173: the data frame has 41 bits: the header, then bit j of group g at position 9 + 8g + (7 - j), most significant first, and
the dots position forced to 1. -/
def Obligations.DataFrameLayout : Prop :=
  ∀ (c : Config) (k : Clock), (dataFrame c k).length = 41 ∧ (dataFrame c k)[c.dotsOffset.val]? = some true ∧
    (∀ p : Nat, p < 9 → p ≠ c.dotsOffset.val → (dataFrame c k)[p]? = some (c.hdr.getLsbD (8 - p))) ∧
    (∀ (g : Fin 4) (j : Fin 8), 9 + 8 * g.val + (7 - j.val) ≠ c.dotsOffset.val →
      (dataFrame c k)[9 + 8 * g.val + (7 - j.val)]? = some ((ceilingGroups c k)[g].getLsbD j.val))

/-- R107: the seven columns show tens of hours, left icons, ones of hours, colon, tens of minutes, right icons, ones of
minutes. -/
def Obligations.MatrixColumnOrder : Prop :=
  ∀ (c : Config) (k : Clock), (matrixColumns c k).toList =
    [glyph c (k.hours.toNat / 10), leftIcons c k.hasAlarm k.alarmEnabled, glyph c (k.hours.toNat % 10), c.colonPattern,
      glyph c (k.minutes.toNat / 10), rightIcons c k.error, glyph c (k.minutes.toNat % 10)]

/-! ### The matrix scanner -/

/-- R140, R150: the timing of a cycle: floor divisions, on-time and pause make the period exactly, and the cycle falls short of it
by on_total mod 7. -/
def Obligations.PwmTimingSplitsThePeriod : Prop :=
  ∀ rate dim : Nat, 1 ≤ rate → rate ≤ 142857 → dim ≤ 100 →
    (pwmTiming rate dim).period = 1000000 / rate ∧ 7 ≤ (pwmTiming rate dim).period ∧
    (pwmTiming rate dim).period ≤ 1000000 ∧ 1000000 / rate * dim ≤ 10 ^ 8 ∧ (pwmTiming rate dim).onTotal = 1000000 / rate * dim / 100 ∧
    (pwmTiming rate dim).colOn = (pwmTiming rate dim).onTotal / 7 ∧
    (pwmTiming rate dim).onTotal + (pwmTiming rate dim).pause = (pwmTiming rate dim).period ∧
    7 * (pwmTiming rate dim).colOn + (pwmTiming rate dim).pause + (pwmTiming rate dim).onTotal % 7 =
      (pwmTiming rate dim).period ∧ 1 ≤ 7 * (pwmTiming rate dim).colOn + (pwmTiming rate dim).pause

/-- R146: after MX's step a column slot lights exactly its column with the rows of its pattern, the pause lights nothing, and START
is never held. -/
def Obligations.MatrixLinesFollowThePhase : Prop :=
  ∀ (c : Config) (k : Clock) (m t : Mx), mxStep c k m = some t → (m.Inv c → t.phase ≠ .start) ∧
    (∀ i : Fin 7, t.phase = .col i → ∀ j : Fin 7,
      (t.col.getLsbD j.val = if j = i then c.colActive else !c.colActive) ∧
      (t.row.getLsbD j.val = if t.pat[i].getLsbD j.val then c.rowActive else !c.rowActive)) ∧
    (t.phase = .pause → ∀ j : Fin 7, t.col.getLsbD j.val = (!c.colActive) ∧ t.row.getLsbD j.val = !c.rowActive)

/-- R148, R142, R149: the timeline of one matrix cycle. From the boundary at which START is left, column i holds for ticks
i * col_on to (i + 1) * col_on - 1 with the pattern of that boundary's snapshot, the pause for the rest, and START is left again
after 7 * col_on + pause ticks, whatever the host writes in between (clk n is the Clock State at the n-th boundary). -/
def Obligations.MatrixCycleTimeline : Prop :=
  ∀ (c : Config) (clk : Nat → Clock) (m : Mx), (clk 0).InRange → mxLeavesStart m = true →
    (∀ (i : Fin 7) (n : Nat),
      i.val * (pwmTiming (clk 0).refreshRate.toNat (clk 0).regularDim.toNat).colOn ≤ n →
      n < (i.val + 1) * (pwmTiming (clk 0).refreshRate.toNat (clk 0).regularDim.toNat).colOn →
      ∃ t : Mx, mxRun c clk (n + 1) m = some t ∧ t.phase = .col i ∧
        t.row = driveLines c.rowActive (matrixColumns c (clk 0))[i] ∧ t.col = driveLines c.colActive (1#7 <<< i.val)) ∧
    (∀ n : Nat, 7 * (pwmTiming (clk 0).refreshRate.toNat (clk 0).regularDim.toNat).colOn ≤ n →
      n < 7 * (pwmTiming (clk 0).refreshRate.toNat (clk 0).regularDim.toNat).colOn +
        (pwmTiming (clk 0).refreshRate.toNat (clk 0).regularDim.toNat).pause →
      ∃ t : Mx, mxRun c clk (n + 1) m = some t ∧ t.phase = .pause ∧ t.row = driveLines c.rowActive 0 ∧
        t.col = driveLines c.colActive 0) ∧
    ∃ t : Mx, mxRun c clk (7 * (pwmTiming (clk 0).refreshRate.toNat (clk 0).regularDim.toNat).colOn +
        (pwmTiming (clk 0).refreshRate.toNat (clk 0).regularDim.toNat).pause) m = some t ∧ mxLeavesStart t = true

/-- R144 as its text has it: the loop leaves at most NINE phases at one boundary and stops with ticks left. It FAILS (log 9): when a
cycle with no pause ends and the next has no lit column, ten phases are left. -/
def Obligations.MatrixLeavesAtMostNinePhases : Prop :=
  ∀ (c : Config) (k : Clock) (m : Mx), k.InRange → m.Inv c →
    ∃ t : Mx, settle Mx.rem (mxAdvance c k) 9 { m with rem := m.rem - 1 } = some t ∧ 1 ≤ t.rem

/-- The loop of R145 with the count put right (log 9, the model's own bound): it leaves at most ten phases and stops with ticks
left, and the invariant of MX holds after the step. -/
def Obligations.MatrixLeavesAtMostTenPhases : Prop :=
  ∀ (c : Config) (k : Clock) (m : Mx), k.InRange → m.Inv c →
    ∃ t : Mx, settle Mx.rem (mxAdvance c k) 10 { m with rem := m.rem - 1 } = some t ∧ 1 ≤ t.rem ∧
      mxStep c k m = some (mxEmit c t) ∧ (mxEmit c t).Inv c

/-! ### The ceiling display -/

/-- R178: a sequence of n bits lasts T_SEQ(n) ticks, from the tick its latch falls to the end of its gap, and the four sequences of a
transmission last T_FRAME ticks together, whatever the host writes in between; the closed forms of both times and their values
under RC0. -/
def Obligations.TransmissionLength : Prop :=
  (∀ (c : Config) (clk : Nat → Clock) (r : Sr) (s : Fin 4), c.wf = true → r.phase = .latchLow s → r.rem = c.tSettle →
    1 ≤ r.seq[s].length →
    (∀ j : Nat, j < tSeq c r.seq[s].length → ∃ t : Sr, srAlone c clk j r = some t ∧ srSeqOf t.phase = some s) ∧
    ∃ t : Sr, srAlone c clk (tSeq c r.seq[s].length) r = some t ∧
      (∀ s' : Fin 4, s'.val = s.val + 1 → t.phase = .latchLow s' ∧ t.rem = c.tSettle) ∧
      (s.val = 3 → 1 ≤ r.idle → t.phase = .idle ∧ t.rem = r.idle) ∧
      (s.val = 3 → r.idle = 0 → t.phase = .latchLow 0 ∧ t.rem = c.tSettle)) ∧
  (∀ (c : Config) (clk : Nat → Clock) (r : Sr), c.wf = true → srLeavesStart r = true →
    (∃ t : Sr, srAlone c clk 1 r = some t ∧ t.phase = .latchLow 0 ∧ t.rem = c.tSettle ∧
      t.seq.toList.map List.length = [12, 12, 12, 41]) ∧
    (∀ n : Nat, n < tFrame c → ∃ t : Sr, srAlone c clk (n + 1) r = some t ∧ (srSeqOf t.phase).isSome = true) ∧
    ∃ t : Sr, srAlone c clk (tFrame c + 1) r = some t ∧
      (tFrame c < 1000000 / (clk 0).refreshRate.toNat →
        t.phase = .idle ∧ t.rem = 1000000 / (clk 0).refreshRate.toNat - tFrame c) ∧
      (1000000 / (clk 0).refreshRate.toNat ≤ tFrame c → t.phase = .latchLow 0 ∧ t.rem = c.tSettle)) ∧
  (∀ (c : Config) (n : Nat), tSeq c n = c.tSettle + n * (c.tClkLow + c.tRise) + c.tGap) ∧
  (∀ c : Config, tFrame c = 3 * tSeq c 12 + tSeq c 41 ∧
    tFrame c = 4 * c.tSettle + 77 * (c.tClkLow + c.tRise) + 4 * c.tGap) ∧
  tSeq .rc0 12 = 260 ∧ tSeq .rc0 41 = 695 ∧ tFrame .rc0 = 1475

/-- R177 (the levels of R174's table): CEIL_LATCH and CEIL_CLK in each phase, CEIL_DATA the level driven last, and the levels before
boundary 0. -/
def Obligations.SerialLinesFollowThePhase : Prop :=
  (∀ c : Config, (State.resetWith c).sr.latchLine = true ∧ (State.resetWith c).sr.clkLine = true ∧
    (State.resetWith c).sr.dataLine = false) ∧
  ∀ (c : Config) (k : Clock) (r t : Sr), srStep c k r = some t → (r.Inv c → t.phase ≠ .start) ∧
    t.dataLine = t.data ∧
    (∀ s : Fin 4, t.phase = .latchLow s → t.latchLine = false ∧ t.clkLine = true) ∧
    (∀ (s : Fin 4) (i : Nat), t.phase = .clkLow s i → t.latchLine = false ∧ t.clkLine = false) ∧
    (∀ (s : Fin 4) (i : Nat), t.phase = .clkHigh s i → t.latchLine = false ∧ t.clkLine = true) ∧
    (∀ s : Fin 4, t.phase = .gap s → t.latchLine = true ∧ t.clkLine = true) ∧
    (t.phase = .idle → t.latchLine = true ∧ t.clkLine = true)

/-- R183: over one transmission the reference receiver commits exactly the four sequences of the snapshot, in order, whatever the host
writes in between. -/
def Obligations.ReceiverGetsTheTransmission : Prop :=
  ∀ (c : Config) (clk : Nat → Clock) (r : Sr) (ws : List (List Bool)), c.wf = true → srLeavesStart r = true →
    ∃ (r' : Sr) (v : Receiver), srRun c clk (tFrame c) (r, ⟨true, true, [], ws⟩) = some (r', v) ∧
      v.words = ws ++ [msbFirst c.cmd[0], msbFirst c.cmd[1], msbFirst c.cmd[2], dataFrame c (clk 0)] ∧ v.shift = [] ∧
      v.latch = true ∧ v.clk = true

/-- R181: a transmission starts every max(period_us, T_FRAME) ticks, period_us taken from the snapshot of the one before, and not
in between. -/
def Obligations.TransmissionsRepeat : Prop :=
  ∀ (c : Config) (clk : Nat → Clock) (r : Sr) (v : Receiver), c.wf = true → srLeavesStart r = true →
    (∃ (r' : Sr) (v' : Receiver), srRun c clk (max (1000000 / (clk 0).refreshRate.toNat) (tFrame c)) (r, v) = some (r', v') ∧
      srLeavesStart r' = true) ∧
    (∀ n : Nat, 0 < n → n < max (1000000 / (clk 0).refreshRate.toNat) (tFrame c) →
      ∃ (r' : Sr) (v' : Receiver), srRun c clk n (r, v) = some (r', v') ∧ srLeavesStart r' = false)

/-- R187, R185, R188: CEIL_EN is active for the first on_total ticks of a period of exactly period_us ticks, both of the snapshot taken
where START is left, whatever the host writes in between. -/
def Obligations.EnableLinePeriod : Prop :=
  ∀ (c : Config) (clk : Nat → Clock) (p : Pw), (clk 0).InRange → pwLeavesStart p = true →
    (∀ n : Nat, n < 1000000 / (clk 0).refreshRate.toNat → ∃ t : Pw, pwRun c clk (n + 1) p = some t ∧
      t.enLine = if n < 1000000 / (clk 0).refreshRate.toNat * (clk 0).ceilingDim.toNat / 100 then c.enActive
        else !c.enActive) ∧
    ∃ t : Pw, pwRun c clk (1000000 / (clk 0).refreshRate.toNat) p = some t ∧ pwLeavesStart t = true

/-! ### The button decoder -/

/-- R213: an edge becomes pending when the pin was armed, low at the boundary before and high now; the level is kept as prev; nothing
else changes, and boundary 0 never sees an edge. -/
def Obligations.EdgeDetectorRule : Prop :=
  (∀ (s : State) (l : Line),
      (((edgeDetect s).edge l).pending = true ↔ (s.edge l).pending = true ∨
        ((s.edge l).armedPrev = true ∧ (s.edge l).prev = false ∧ s.level l = true)) ∧
      ((edgeDetect s).edge l).prev = s.level l ∧ ((edgeDetect s).edge l).armedPrev = (s.edge l).armedPrev) ∧
    (∀ s : State, edgeDetect s = { s with edge0 := (edgeDetect s).edge0, edge1 := (edgeDetect s).edge1 }) ∧
    (∀ (c : Config) (s : State) (l : Line),
      ((edgeDetect { State.resetWith c with world := s.world }).edge l).pending = false)

/-- R214: in IDLE the decoder takes a pending edge at the same boundary, line 0 before line 1, and leaves the other line's pending
bit; the samples, the FIFO, STATUS, LAST_SAMPLE and PRESS_DURATION stay. -/
def Obligations.IdleServesLineZeroFirst : Prop :=
  ∀ s t : State, tick s = .next t → s.bd.phase = .idle →
    idleChecked s t ∧ bdRegsKept s t ∧ t.bd.s1 = s.bd.s1 ∧ t.bd.s2 = s.bd.s2

/-- R215: only the level at the boundary the debounce ends counts: high goes on to DIS1 with no sample, low returns to IDLE, where
R225 with R214 takes a latched edge at once; no register is written. -/
def Obligations.DebounceLooksOnce : Prop :=
  ∀ s t : State, tick s = .next t → s.bd.phase = .debounce →
    bdRegsKept s t ∧
    (2 ≤ s.bd.rem → t.bd.phase = .debounce ∧ t.bd.rem = s.bd.rem - 1 ∧ t.bd.line = s.bd.line ∧ pendingKept s t) ∧
    (s.bd.rem = 1 → s.level s.bd.line = true → t.bd.phase = .dis1 ∧ t.bd.rem = s.cfg.tDischarge ∧ t.bd.s1 = none ∧
      t.bd.s2 = none ∧ t.bd.line = s.bd.line ∧ pendingKept s t) ∧
    (s.bd.rem = 1 → s.level s.bd.line = false → idleChecked s t)

/-- R216, R217: a tick of a discharge lowers the count, and its end begins the pass with count 0, in DIS1 and DIS2, with one pass or
two. A poll counts one tick; a high level ends the pass with the count as its sample, the cap without a high level ends it with
none, and what follows the pass is DIS2 after the first of two passes and HOLD after the last. A discharge, a poll that goes on and
the end of the first of two passes leave the FIFO, STATUS and LAST_SAMPLE alone; none of them, and no end of a pass, changes
PRESS_DURATION, the line or what is pending. -/
def Obligations.MeasurePollRule : Prop :=
  ∀ s t : State, tick s = .next t →
    (s.bd.phase = .dis1 ∨ s.bd.phase = .dis2 →
      bdRegsKept s t ∧ pendingKept s t ∧ t.bd.line = s.bd.line ∧ t.bd.s1 = s.bd.s1 ∧ t.bd.s2 = s.bd.s2 ∧
      (2 ≤ s.bd.rem → t.bd.phase = s.bd.phase ∧ t.bd.rem = s.bd.rem - 1) ∧
      (s.bd.rem = 1 → t.bd.phase = (if s.bd.phase = .dis1 then .meas1 else .meas2) ∧ t.bd.cnt = 0)) ∧
    (s.bd.phase = .meas1 ∨ s.bd.phase = .meas2 →
      t.pressDuration = s.pressDuration ∧ t.bd.line = s.bd.line ∧ pendingKept s t) ∧
    (s.bd.phase = .meas1 → ∀ v : Option Nat,
      ((s.level s.bd.line = true ∧ v = some (s.bd.cnt + 1)) ∨
        (s.level s.bd.line = false ∧ s.bd.cnt + 1 = s.cfg.tMeasureMax ∧ v = none)) →
      t.bd.s1 = v ∧ t.bd.s2 = s.bd.s2 ∧
      (s.cfg.doubleSample = true → t.bd.phase = .dis2 ∧ t.bd.rem = s.cfg.tDischarge ∧ t.fifo = s.fifo ∧
        t.status = s.status ∧ t.lastSample = s.lastSample) ∧
      (s.cfg.doubleSample = false → t.bd.phase = .hold ∧ t.bd.cnt = 0)) ∧
    (s.bd.phase = .meas2 → ∀ v : Option Nat,
      ((s.level s.bd.line = true ∧ v = some (s.bd.cnt + 1)) ∨
        (s.level s.bd.line = false ∧ s.bd.cnt + 1 = s.cfg.tMeasureMax ∧ v = none)) →
      t.bd.s2 = v ∧ t.bd.s1 = s.bd.s1 ∧ t.bd.phase = .hold ∧ t.bd.cnt = 0) ∧
    (s.bd.phase = .meas1 ∨ s.bd.phase = .meas2 → s.level s.bd.line = false → s.bd.cnt + 1 ≠ s.cfg.tMeasureMax →
      t.bd.phase = s.bd.phase ∧ t.bd.cnt = s.bd.cnt + 1 ∧ t.bd.s1 = s.bd.s1 ∧ t.bd.s2 = s.bd.s2 ∧ t.fifo = s.fifo ∧
      t.status = s.status ∧ t.lastSample = s.lastSample)

/-- R219: the average of two samples rounds down, one absent pass falls back on the other, and the result stays within the cap. -/
def Obligations.CombineRule : Prop :=
  (∀ (c : Config) (a b : Nat), c.doubleSample = true → combineSamples c (some a) (some b) = some ((a + b) / 2) ∧
      combineSamples c (some a) none = some a ∧ combineSamples c none (some b) = some b ∧
      combineSamples c none none = none ∧ (a ≤ c.tMeasureMax → b ≤ c.tMeasureMax → (a + b) / 2 ≤ c.tMeasureMax)) ∧
    (∀ (c : Config) (a b : Option Nat), c.doubleSample = false → combineSamples c a b = a)

/-- R226, R227: the tolerance tests, and the first entry in table order that matches wins. -/
def Obligations.FirstMatchingEntryWins : Prop :=
  (∀ (c : Config) (l : Line) (e : Entry) (s : Nat),
      (e.kind = .lt2x → (entryMatches c l e s = true ↔ s < 2 * e.expected)) ∧
      (e.kind = .band → (entryMatches c l e s = true ↔
        c.bandLo l * e.expected ≤ 100 * s ∧ 100 * s ≤ c.bandHi l * e.expected))) ∧
    (∀ (c : Config) (l : Line) (s : Nat) (t : List Entry) (b : Button), lookupButton c l s t = some b ↔
      ∃ (pre : List Entry) (e : Entry) (post : List Entry), t = pre ++ e :: post ∧ e.button = b ∧
        entryMatches c l e s = true ∧ ∀ x ∈ pre, entryMatches c l x s = false) ∧
    (∀ (c : Config) (l : Line) (s : Nat) (t : List Entry),
      lookupButton c l s t = none ↔ ∀ x ∈ t, entryMatches c l x s = false)

/-- From R232: under a well-formed configuration a sample equal to an expected value always classifies to that entry's button; a sample
at either end of an entry's band matches the entry (an earlier entry may match it too), and twice the expected value of an LT2X entry
does not. -/
def Obligations.ExpectedValueClassifiesToItsButton : Prop :=
  ∀ (c : Config) (l : Line) (e : Entry), c.wf = true → e ∈ c.table l →
    lookupButton c l e.expected (c.table l) = some e.button ∧ entryMatches c l e e.expected = true ∧
    (e.kind = .band → ∀ s : Nat, 100 * s = c.bandLo l * e.expected ∨ 100 * s = c.bandHi l * e.expected →
      entryMatches c l e s = true) ∧
    (e.kind = .lt2x → entryMatches c l e (2 * e.expected) = false)

/-- R222, R229: at the boundary the last pass ends, LAST_SAMPLE records the combined sample and the outcome; an absent sample sets
NOSAMPLE, an unmatched one NOMATCH, a matched one enters the FIFO or, when it is full, sets EVT_OVF; nothing else of STATUS or the FIFO
changes. -/
def Obligations.ClassificationOutcome : Prop :=
  ∀ (s t : State) (v x : Option Nat), tick s = .next t → inLastPass s = true →
    pollSample s.cfg (s.bd.cnt + 1) (s.level s.bd.line) = some v →
    x = (if s.bd.phase = .meas2 then combineSamples s.cfg s.bd.s1 v else v) →
    (x = none → t.lastSample.toNat = 2 ^ 21 * (lineBit s.bd.line).toNat ∧ t.fifo = s.fifo ∧
      t.status = { s.status with noSample := true }) ∧
    (∀ n : Nat, x = some n → n < 2 ^ 20 → lookupButton s.cfg s.bd.line n (s.cfg.table s.bd.line) = none →
      t.lastSample.toNat = n + 2 ^ 20 + 2 ^ 21 * (lineBit s.bd.line).toNat ∧ t.fifo = s.fifo ∧
      t.status = { s.status with noMatch := true }) ∧
    (∀ (n : Nat) (b : Button), x = some n → n < 2 ^ 20 →
      lookupButton s.cfg s.bd.line n (s.cfg.table s.bd.line) = some b →
      t.lastSample.toNat = n + 2 ^ 20 + 2 ^ 21 * (lineBit s.bd.line).toNat + 2 ^ 22 ∧
      (s.fifo.length < s.cfg.evtDepth → t.fifo = s.fifo ++ [⟨b, s.bd.line⟩] ∧ t.status = s.status) ∧
      (s.cfg.evtDepth ≤ s.fifo.length → t.fifo = s.fifo ∧ t.status = { s.status with evtOvf := true }))

/-- R223, R224, R225: HOLD is entered where the last measurement pass ends, its count at 0, and in no other way; the release wait
counts ticks until the key reads low or the cap and records the duration and the timeout; the final discharge returns to IDLE,
where R225 with R214 takes a latched edge at once. Both leave the FIFO, STATUS and LAST_SAMPLE alone, DISF PRESS_DURATION too. -/
def Obligations.HoldAndFinalDischarge : Prop :=
  ∀ s t : State, tick s = .next t →
    (inLastPass s = true → (pollSample s.cfg (s.bd.cnt + 1) (s.level s.bd.line)).isSome = true →
      t.bd.phase = .hold ∧ t.bd.cnt = 0 ∧ t.bd.line = s.bd.line ∧ t.pressDuration = s.pressDuration) ∧
    (s.bd.phase ≠ .hold → t.bd.phase = .hold →
      inLastPass s = true ∧ (pollSample s.cfg (s.bd.cnt + 1) (s.level s.bd.line)).isSome = true) ∧
    (s.bd.phase = .hold → t.fifo = s.fifo ∧ t.status = s.status ∧ t.lastSample = s.lastSample ∧ t.bd.line = s.bd.line ∧
      pendingKept s t ∧
      (s.level s.bd.line = false → t.bd.phase = .disf ∧ t.bd.rem = s.cfg.tDischarge ∧
        (s.bd.cnt + 1 < 2 ^ 23 → t.pressDuration.toNat = s.bd.cnt + 1)) ∧
      (s.level s.bd.line = true → s.bd.cnt + 1 = s.cfg.tHoldMax → t.bd.phase = .disf ∧ t.bd.rem = s.cfg.tDischarge ∧
        (s.bd.cnt + 1 < 2 ^ 23 → t.pressDuration.toNat = 2 ^ 23 + (s.bd.cnt + 1))) ∧
      (s.level s.bd.line = true → s.bd.cnt + 1 ≠ s.cfg.tHoldMax → t.bd.phase = .hold ∧ t.bd.cnt = s.bd.cnt + 1 ∧
        t.pressDuration = s.pressDuration)) ∧
    (s.bd.phase = .disf → bdRegsKept s t ∧
      (2 ≤ s.bd.rem → t.bd.phase = .disf ∧ t.bd.rem = s.bd.rem - 1 ∧ t.bd.line = s.bd.line ∧ pendingKept s t) ∧
      (s.bd.rem = 1 → idleChecked s t))

/-- R212, R210: the pin modes of the tick are those of the phase held, the line not serviced stays armed, and armed_prev follows the
modes. -/
def Obligations.PinModesFollowThePhase : Prop :=
  ∀ s t : State, tick s = .next t → ∀ l : Line,
    (match l with | .l0 => t.bd.key0 | .l1 => t.bd.key1) =
      (if l ≠ t.bd.line then PinMode.inPulldownIrq
       else match t.bd.phase with
        | .idle => .inPulldownIrq
        | .debounce => .inPulldown
        | .dis1 => .outLow
        | .dis2 => .outLow
        | .disf => .outLow
        | .meas1 => .inFloat
        | .meas2 => .inFloat
        | .hold => .inPulldown) ∧
    ((t.edge l).armedPrev = true ↔ (match l with | .l0 => t.bd.key0 | .l1 => t.bd.key1) = .inPulldownIrq) ∧
    t.bd.gndRef = if s.cfg.hasGndRef then some .outLow else none

/-- R231 (with R218 for a pass, R222 for what is recorded): the timeline of a press of line l with two passes of samples x1 and x2
(an absent pass lasts T_MEASURE_MAX) and a release seen at hold count h: which phase holds after each boundary up to the return to
IDLE, and what each of them writes. Offsets n count boundaries from the one at which the edge is served. -/
def Obligations.PressTimeline : Prop :=
  ∀ (s t : State) (l : Line) (x1 x2 : Option Nat) (d1 d2 h k1 k2 k3 k4 k5 k6 k7 n : Nat), s.cfg.wf = true →
    s.cfg.doubleSample = true → s.servesNext l = true →
    k1 = s.cfg.tDebounce → k2 = k1 + s.cfg.tDischarge → k3 = k2 + d1 → k4 = k3 + s.cfg.tDischarge → k5 = k4 + d2 →
    k6 = k5 + h → k7 = k6 + s.cfg.tDischarge →
    s.levelAt (s.world.now + k1) l = true →
    s.passGives l (s.world.now + k2) d1 x1 → s.passGives l (s.world.now + k4) d2 x2 →
    1 ≤ h → h ≤ s.cfg.tHoldMax → (∀ j, k5 < j → j < k6 → s.levelAt (s.world.now + j) l = true) →
    s.levelAt (s.world.now + k6) l = false →
    runTicks (n + 1) s = some t →
    (n < k7 → t.bd.line = l) ∧
    (n < k1 → t.bd.phase = .debounce) ∧
    (k1 ≤ n → n < k2 → t.bd.phase = .dis1) ∧
    (k2 ≤ n → n < k3 → t.bd.phase = .meas1) ∧
    (k3 ≤ n → n < k4 → t.bd.phase = .dis2) ∧
    (k4 ≤ n → n < k5 → t.bd.phase = .meas2) ∧
    (k5 ≤ n → n < k6 → t.bd.phase = .hold) ∧
    (k6 ≤ n → n < k7 → t.bd.phase = .disf) ∧
    (n = k7 → t.bd.phase = .idle ∨ (t.bd.phase = .debounce ∧ t.bd.line ≠ l)) ∧
    (n < k5 → t.fifo = s.fifo ∧ t.lastSample = s.lastSample) ∧
    (k5 ≤ n → n ≤ k7 → combineSamples s.cfg x1 x2 = none → t.lastSample = packLastSample false l false 0 ∧ t.fifo = s.fifo) ∧
    (k5 ≤ n → n ≤ k7 → ∀ v : Nat, combineSamples s.cfg x1 x2 = some v →
      t.lastSample = packLastSample (lookupButton s.cfg l v (s.cfg.table l)).isSome l true v ∧
      t.fifo = (match lookupButton s.cfg l v (s.cfg.table l) with
        | some b => if s.fifo.length < s.cfg.evtDepth then s.fifo ++ [⟨b, l⟩] else s.fifo
        | none => s.fifo)) ∧
    (n < k6 → t.pressDuration = s.pressDuration) ∧
    (k6 ≤ n → n ≤ k7 → t.pressDuration = packPressDuration false h)

/-- R340: two classifications, so two pushes, are at least T_MIN_PUSH ticks apart, whatever the host does in between and with RESET not
asserted. -/
def Obligations.PushesAreMinPushApart : Prop :=
  ∀ (s t : State) (n : Nat), s.cfg.wf = true → s.world.resets = [] → classifiesNext s = true →
    Host.Core.run Sys2Proof.core (n + 1) s = .next t → classifiesNext t = true →
    s.world.now + (if s.cfg.doubleSample then 1 + 3 * s.cfg.tDischarge + s.cfg.tDebounce + 2
      else 1 + 2 * s.cfg.tDischarge + s.cfg.tDebounce + 1) ≤ t.world.now

/-! ### The whole block -/

/-- R67 step (3): the units may step in any order; each order gives the state the tick gives. -/
def Obligations.UnitOrderDoesNotMatter : Prop :=
  ∀ s t : State, ∀ us ∈ [unitMx, unitSr, unitPw, unitBd].permutations,
    (tick s = .next t ↔ ∃ u : State, runUnits us (edgeDetect s) = some u ∧
      t = { u with world := { u.world with now := u.world.now + 1 } })

/-- R318, R315: what a unit does depends on nothing but the configuration, its own state and what it reads: MX, SR and PW on the Clock
State, BD on the key levels, its edge detectors and the registers it writes. -/
def Obligations.UnitsDoNotInterfere : Prop :=
  ∀ s₁ s₂ t₁ t₂ : State, tick s₁ = .next t₁ → tick s₂ = .next t₂ → s₁.cfg = s₂.cfg →
    (s₁.clock = s₂.clock → s₁.mx = s₂.mx → t₁.mx = t₂.mx) ∧
    (s₁.clock = s₂.clock → s₁.sr = s₂.sr → t₁.sr = t₂.sr) ∧
    (s₁.clock = s₂.clock → s₁.pw = s₂.pw → t₁.pw = t₂.pw) ∧
    (s₁.bd = s₂.bd → s₁.edge0 = s₂.edge0 → s₁.edge1 = s₂.edge1 → (∀ l, s₁.level l = s₂.level l) →
      t₁.bd = t₂.bd ∧ t₁.edge0 = t₂.edge0 ∧ t₁.edge1 = t₂.edge1 ∧
      (s₁.fifo = s₂.fifo → t₁.fifo = t₂.fifo) ∧
      (s₁.status = s₂.status → s₁.fifo = s₂.fifo → t₁.status = t₂.status) ∧
      (s₁.lastSample = s₂.lastSample → t₁.lastSample = t₂.lastSample) ∧
      (s₁.pressDuration = s₂.pressDuration → t₁.pressDuration = t₂.pressDuration))

/-- The invariant holds at reset, for the block's configuration and for every well-formed one. -/
def Obligations.ResetMeetsTheInvariant : Prop :=
  State.reset.Inv ∧ ∀ c : Config, c.wf = true → (State.resetWith c).Inv

/-- R36 and the invariants of the units: every step keeps State.Inv, from every state that meets it. -/
def Obligations.StepKeepsTheInvariant : Prop := ∀ s t : State, s.Inv → step s = .next t → t.Inv

/-- R303, R144: from every state that meets the invariant the step answers a next state; no fault and no refusal is reached. -/
def Obligations.BlockNeverStops : Prop := ∀ s : State, s.Inv → ∃ t : State, step s = .next t ∧ t.Inv
end

