-- ==== Sys2Proof/Laws/Bits.lean ====
section
/-! SUPPORT. The bit helpers: a list read as a number, the transmission order, and one bit placed in a vector. -/

namespace Sys2Proof.Machine

/-- Bit i of the number a list spells is element i of the list (R8). -/
theorem testBit_bitsToNat (bs : List Bool) (i : Nat) : (bitsToNat bs).testBit i = bs.getD i false := by
  induction bs generalizing i with
  | nil => simp [bitsToNat]
  | cons b rest ih =>
    cases i with
    | zero => cases b <;> simp [bitsToNat, Nat.testBit_zero]
    | succ i =>
      have h : bitsToNat (b :: rest) / 2 = bitsToNat rest := by
        cases b <;> simp only [bitsToNat, Bool.toNat_true, Bool.toNat_false] <;> omega
      rw [Nat.testBit_succ, h, ih]
      simp

@[simp] theorem msbFirst_length {n : Nat} (v : BitVec n) : (msbFirst v).length = n := by simp [msbFirst]

/-- Element j of msb_first_N(v) is v[N-1-j] (R8). -/
theorem msbFirst_get {n : Nat} (v : BitVec n) {j : Nat} (h : j < n) : (msbFirst v).getD j false = v.getLsbD (n - 1 - j) := by
  simp [msbFirst, List.getD, h]

/-- The one bit bitAt places. -/
theorem getLsbD_bitAt (p : Fin 7) (b : Bool) {i : Nat} (h : i < 7) : (bitAt p b).getLsbD i = (b && decide (i = p.val)) := by
  revert b
  have : ∀ p : Fin 7, ∀ b : Bool, ∀ i : Fin 7, (bitAt p b).getLsbD i.val = (b && decide (i.val = p.val)) := by decide
  exact fun b => this p b ⟨i, h⟩

end Sys2Proof.Machine
end

