-- ==== Sys2Proof/Laws/State.lean ====
section
/-! SUPPORT. One lemma per field per setter of Machine/Ops.lean, true by rfl, so that no later proof unfolds a record
update. -/

namespace Sys2Proof.Machine

variable (s : State)

@[simp] theorem State.setClock_cfg (v : Clock) : (s.setClock v).cfg = s.cfg := rfl
@[simp] theorem State.setClock_clock (v : Clock) : (s.setClock v).clock = v := rfl
@[simp] theorem State.setClock_status (v : Clock) : (s.setClock v).status = s.status := rfl
@[simp] theorem State.setClock_lastSample (v : Clock) : (s.setClock v).lastSample = s.lastSample := rfl
@[simp] theorem State.setClock_pressDuration (v : Clock) : (s.setClock v).pressDuration = s.pressDuration := rfl
@[simp] theorem State.setClock_fifo (v : Clock) : (s.setClock v).fifo = s.fifo := rfl
@[simp] theorem State.setClock_mx (v : Clock) : (s.setClock v).mx = s.mx := rfl
@[simp] theorem State.setClock_sr (v : Clock) : (s.setClock v).sr = s.sr := rfl
@[simp] theorem State.setClock_pw (v : Clock) : (s.setClock v).pw = s.pw := rfl
@[simp] theorem State.setClock_bd (v : Clock) : (s.setClock v).bd = s.bd := rfl
@[simp] theorem State.setClock_edge0 (v : Clock) : (s.setClock v).edge0 = s.edge0 := rfl
@[simp] theorem State.setClock_edge1 (v : Clock) : (s.setClock v).edge1 = s.edge1 := rfl
@[simp] theorem State.setClock_world (v : Clock) : (s.setClock v).world = s.world := rfl

@[simp] theorem State.setStatus_cfg (v : Status) : (s.setStatus v).cfg = s.cfg := rfl
@[simp] theorem State.setStatus_clock (v : Status) : (s.setStatus v).clock = s.clock := rfl
@[simp] theorem State.setStatus_status (v : Status) : (s.setStatus v).status = v := rfl
@[simp] theorem State.setStatus_lastSample (v : Status) : (s.setStatus v).lastSample = s.lastSample := rfl
@[simp] theorem State.setStatus_pressDuration (v : Status) : (s.setStatus v).pressDuration = s.pressDuration := rfl
@[simp] theorem State.setStatus_fifo (v : Status) : (s.setStatus v).fifo = s.fifo := rfl
@[simp] theorem State.setStatus_mx (v : Status) : (s.setStatus v).mx = s.mx := rfl
@[simp] theorem State.setStatus_sr (v : Status) : (s.setStatus v).sr = s.sr := rfl
@[simp] theorem State.setStatus_pw (v : Status) : (s.setStatus v).pw = s.pw := rfl
@[simp] theorem State.setStatus_bd (v : Status) : (s.setStatus v).bd = s.bd := rfl
@[simp] theorem State.setStatus_edge0 (v : Status) : (s.setStatus v).edge0 = s.edge0 := rfl
@[simp] theorem State.setStatus_edge1 (v : Status) : (s.setStatus v).edge1 = s.edge1 := rfl
@[simp] theorem State.setStatus_world (v : Status) : (s.setStatus v).world = s.world := rfl

@[simp] theorem State.setLastSample_cfg (v : Data) : (s.setLastSample v).cfg = s.cfg := rfl
@[simp] theorem State.setLastSample_clock (v : Data) : (s.setLastSample v).clock = s.clock := rfl
@[simp] theorem State.setLastSample_status (v : Data) : (s.setLastSample v).status = s.status := rfl
@[simp] theorem State.setLastSample_lastSample (v : Data) : (s.setLastSample v).lastSample = v := rfl
@[simp] theorem State.setLastSample_pressDuration (v : Data) : (s.setLastSample v).pressDuration = s.pressDuration := rfl
@[simp] theorem State.setLastSample_fifo (v : Data) : (s.setLastSample v).fifo = s.fifo := rfl
@[simp] theorem State.setLastSample_mx (v : Data) : (s.setLastSample v).mx = s.mx := rfl
@[simp] theorem State.setLastSample_sr (v : Data) : (s.setLastSample v).sr = s.sr := rfl
@[simp] theorem State.setLastSample_pw (v : Data) : (s.setLastSample v).pw = s.pw := rfl
@[simp] theorem State.setLastSample_bd (v : Data) : (s.setLastSample v).bd = s.bd := rfl
@[simp] theorem State.setLastSample_edge0 (v : Data) : (s.setLastSample v).edge0 = s.edge0 := rfl
@[simp] theorem State.setLastSample_edge1 (v : Data) : (s.setLastSample v).edge1 = s.edge1 := rfl
@[simp] theorem State.setLastSample_world (v : Data) : (s.setLastSample v).world = s.world := rfl

@[simp] theorem State.setPressDuration_cfg (v : Data) : (s.setPressDuration v).cfg = s.cfg := rfl
@[simp] theorem State.setPressDuration_clock (v : Data) : (s.setPressDuration v).clock = s.clock := rfl
@[simp] theorem State.setPressDuration_status (v : Data) : (s.setPressDuration v).status = s.status := rfl
@[simp] theorem State.setPressDuration_lastSample (v : Data) : (s.setPressDuration v).lastSample = s.lastSample := rfl
@[simp] theorem State.setPressDuration_pressDuration (v : Data) : (s.setPressDuration v).pressDuration = v := rfl
@[simp] theorem State.setPressDuration_fifo (v : Data) : (s.setPressDuration v).fifo = s.fifo := rfl
@[simp] theorem State.setPressDuration_mx (v : Data) : (s.setPressDuration v).mx = s.mx := rfl
@[simp] theorem State.setPressDuration_sr (v : Data) : (s.setPressDuration v).sr = s.sr := rfl
@[simp] theorem State.setPressDuration_pw (v : Data) : (s.setPressDuration v).pw = s.pw := rfl
@[simp] theorem State.setPressDuration_bd (v : Data) : (s.setPressDuration v).bd = s.bd := rfl
@[simp] theorem State.setPressDuration_edge0 (v : Data) : (s.setPressDuration v).edge0 = s.edge0 := rfl
@[simp] theorem State.setPressDuration_edge1 (v : Data) : (s.setPressDuration v).edge1 = s.edge1 := rfl
@[simp] theorem State.setPressDuration_world (v : Data) : (s.setPressDuration v).world = s.world := rfl

@[simp] theorem State.setFifo_cfg (v : List Event) : (s.setFifo v).cfg = s.cfg := rfl
@[simp] theorem State.setFifo_clock (v : List Event) : (s.setFifo v).clock = s.clock := rfl
@[simp] theorem State.setFifo_status (v : List Event) : (s.setFifo v).status = s.status := rfl
@[simp] theorem State.setFifo_lastSample (v : List Event) : (s.setFifo v).lastSample = s.lastSample := rfl
@[simp] theorem State.setFifo_pressDuration (v : List Event) : (s.setFifo v).pressDuration = s.pressDuration := rfl
@[simp] theorem State.setFifo_fifo (v : List Event) : (s.setFifo v).fifo = v := rfl
@[simp] theorem State.setFifo_mx (v : List Event) : (s.setFifo v).mx = s.mx := rfl
@[simp] theorem State.setFifo_sr (v : List Event) : (s.setFifo v).sr = s.sr := rfl
@[simp] theorem State.setFifo_pw (v : List Event) : (s.setFifo v).pw = s.pw := rfl
@[simp] theorem State.setFifo_bd (v : List Event) : (s.setFifo v).bd = s.bd := rfl
@[simp] theorem State.setFifo_edge0 (v : List Event) : (s.setFifo v).edge0 = s.edge0 := rfl
@[simp] theorem State.setFifo_edge1 (v : List Event) : (s.setFifo v).edge1 = s.edge1 := rfl
@[simp] theorem State.setFifo_world (v : List Event) : (s.setFifo v).world = s.world := rfl

@[simp] theorem State.setMx_cfg (v : Mx) : (s.setMx v).cfg = s.cfg := rfl
@[simp] theorem State.setMx_clock (v : Mx) : (s.setMx v).clock = s.clock := rfl
@[simp] theorem State.setMx_status (v : Mx) : (s.setMx v).status = s.status := rfl
@[simp] theorem State.setMx_lastSample (v : Mx) : (s.setMx v).lastSample = s.lastSample := rfl
@[simp] theorem State.setMx_pressDuration (v : Mx) : (s.setMx v).pressDuration = s.pressDuration := rfl
@[simp] theorem State.setMx_fifo (v : Mx) : (s.setMx v).fifo = s.fifo := rfl
@[simp] theorem State.setMx_mx (v : Mx) : (s.setMx v).mx = v := rfl
@[simp] theorem State.setMx_sr (v : Mx) : (s.setMx v).sr = s.sr := rfl
@[simp] theorem State.setMx_pw (v : Mx) : (s.setMx v).pw = s.pw := rfl
@[simp] theorem State.setMx_bd (v : Mx) : (s.setMx v).bd = s.bd := rfl
@[simp] theorem State.setMx_edge0 (v : Mx) : (s.setMx v).edge0 = s.edge0 := rfl
@[simp] theorem State.setMx_edge1 (v : Mx) : (s.setMx v).edge1 = s.edge1 := rfl
@[simp] theorem State.setMx_world (v : Mx) : (s.setMx v).world = s.world := rfl

@[simp] theorem State.setSr_cfg (v : Sr) : (s.setSr v).cfg = s.cfg := rfl
@[simp] theorem State.setSr_clock (v : Sr) : (s.setSr v).clock = s.clock := rfl
@[simp] theorem State.setSr_status (v : Sr) : (s.setSr v).status = s.status := rfl
@[simp] theorem State.setSr_lastSample (v : Sr) : (s.setSr v).lastSample = s.lastSample := rfl
@[simp] theorem State.setSr_pressDuration (v : Sr) : (s.setSr v).pressDuration = s.pressDuration := rfl
@[simp] theorem State.setSr_fifo (v : Sr) : (s.setSr v).fifo = s.fifo := rfl
@[simp] theorem State.setSr_mx (v : Sr) : (s.setSr v).mx = s.mx := rfl
@[simp] theorem State.setSr_sr (v : Sr) : (s.setSr v).sr = v := rfl
@[simp] theorem State.setSr_pw (v : Sr) : (s.setSr v).pw = s.pw := rfl
@[simp] theorem State.setSr_bd (v : Sr) : (s.setSr v).bd = s.bd := rfl
@[simp] theorem State.setSr_edge0 (v : Sr) : (s.setSr v).edge0 = s.edge0 := rfl
@[simp] theorem State.setSr_edge1 (v : Sr) : (s.setSr v).edge1 = s.edge1 := rfl
@[simp] theorem State.setSr_world (v : Sr) : (s.setSr v).world = s.world := rfl

@[simp] theorem State.setPw_cfg (v : Pw) : (s.setPw v).cfg = s.cfg := rfl
@[simp] theorem State.setPw_clock (v : Pw) : (s.setPw v).clock = s.clock := rfl
@[simp] theorem State.setPw_status (v : Pw) : (s.setPw v).status = s.status := rfl
@[simp] theorem State.setPw_lastSample (v : Pw) : (s.setPw v).lastSample = s.lastSample := rfl
@[simp] theorem State.setPw_pressDuration (v : Pw) : (s.setPw v).pressDuration = s.pressDuration := rfl
@[simp] theorem State.setPw_fifo (v : Pw) : (s.setPw v).fifo = s.fifo := rfl
@[simp] theorem State.setPw_mx (v : Pw) : (s.setPw v).mx = s.mx := rfl
@[simp] theorem State.setPw_sr (v : Pw) : (s.setPw v).sr = s.sr := rfl
@[simp] theorem State.setPw_pw (v : Pw) : (s.setPw v).pw = v := rfl
@[simp] theorem State.setPw_bd (v : Pw) : (s.setPw v).bd = s.bd := rfl
@[simp] theorem State.setPw_edge0 (v : Pw) : (s.setPw v).edge0 = s.edge0 := rfl
@[simp] theorem State.setPw_edge1 (v : Pw) : (s.setPw v).edge1 = s.edge1 := rfl
@[simp] theorem State.setPw_world (v : Pw) : (s.setPw v).world = s.world := rfl

@[simp] theorem State.setBd_cfg (v : Bd) : (s.setBd v).cfg = s.cfg := rfl
@[simp] theorem State.setBd_clock (v : Bd) : (s.setBd v).clock = s.clock := rfl
@[simp] theorem State.setBd_status (v : Bd) : (s.setBd v).status = s.status := rfl
@[simp] theorem State.setBd_lastSample (v : Bd) : (s.setBd v).lastSample = s.lastSample := rfl
@[simp] theorem State.setBd_pressDuration (v : Bd) : (s.setBd v).pressDuration = s.pressDuration := rfl
@[simp] theorem State.setBd_fifo (v : Bd) : (s.setBd v).fifo = s.fifo := rfl
@[simp] theorem State.setBd_mx (v : Bd) : (s.setBd v).mx = s.mx := rfl
@[simp] theorem State.setBd_sr (v : Bd) : (s.setBd v).sr = s.sr := rfl
@[simp] theorem State.setBd_pw (v : Bd) : (s.setBd v).pw = s.pw := rfl
@[simp] theorem State.setBd_bd (v : Bd) : (s.setBd v).bd = v := rfl
@[simp] theorem State.setBd_edge0 (v : Bd) : (s.setBd v).edge0 = s.edge0 := rfl
@[simp] theorem State.setBd_edge1 (v : Bd) : (s.setBd v).edge1 = s.edge1 := rfl
@[simp] theorem State.setBd_world (v : Bd) : (s.setBd v).world = s.world := rfl

@[simp] theorem State.setWorld_cfg (v : World) : (s.setWorld v).cfg = s.cfg := rfl
@[simp] theorem State.setWorld_clock (v : World) : (s.setWorld v).clock = s.clock := rfl
@[simp] theorem State.setWorld_status (v : World) : (s.setWorld v).status = s.status := rfl
@[simp] theorem State.setWorld_lastSample (v : World) : (s.setWorld v).lastSample = s.lastSample := rfl
@[simp] theorem State.setWorld_pressDuration (v : World) : (s.setWorld v).pressDuration = s.pressDuration := rfl
@[simp] theorem State.setWorld_fifo (v : World) : (s.setWorld v).fifo = s.fifo := rfl
@[simp] theorem State.setWorld_mx (v : World) : (s.setWorld v).mx = s.mx := rfl
@[simp] theorem State.setWorld_sr (v : World) : (s.setWorld v).sr = s.sr := rfl
@[simp] theorem State.setWorld_pw (v : World) : (s.setWorld v).pw = s.pw := rfl
@[simp] theorem State.setWorld_bd (v : World) : (s.setWorld v).bd = s.bd := rfl
@[simp] theorem State.setWorld_edge0 (v : World) : (s.setWorld v).edge0 = s.edge0 := rfl
@[simp] theorem State.setWorld_edge1 (v : World) : (s.setWorld v).edge1 = s.edge1 := rfl
@[simp] theorem State.setWorld_world (v : World) : (s.setWorld v).world = v := rfl

@[simp] theorem State.setEdges_cfg (v0 v1 : Edge) : (s.setEdges v0 v1).cfg = s.cfg := rfl
@[simp] theorem State.setEdges_clock (v0 v1 : Edge) : (s.setEdges v0 v1).clock = s.clock := rfl
@[simp] theorem State.setEdges_status (v0 v1 : Edge) : (s.setEdges v0 v1).status = s.status := rfl
@[simp] theorem State.setEdges_lastSample (v0 v1 : Edge) : (s.setEdges v0 v1).lastSample = s.lastSample := rfl
@[simp] theorem State.setEdges_pressDuration (v0 v1 : Edge) : (s.setEdges v0 v1).pressDuration = s.pressDuration := rfl
@[simp] theorem State.setEdges_fifo (v0 v1 : Edge) : (s.setEdges v0 v1).fifo = s.fifo := rfl
@[simp] theorem State.setEdges_mx (v0 v1 : Edge) : (s.setEdges v0 v1).mx = s.mx := rfl
@[simp] theorem State.setEdges_sr (v0 v1 : Edge) : (s.setEdges v0 v1).sr = s.sr := rfl
@[simp] theorem State.setEdges_pw (v0 v1 : Edge) : (s.setEdges v0 v1).pw = s.pw := rfl
@[simp] theorem State.setEdges_bd (v0 v1 : Edge) : (s.setEdges v0 v1).bd = s.bd := rfl
@[simp] theorem State.setEdges_edge0 (v0 v1 : Edge) : (s.setEdges v0 v1).edge0 = v0 := rfl
@[simp] theorem State.setEdges_edge1 (v0 v1 : Edge) : (s.setEdges v0 v1).edge1 = v1 := rfl
@[simp] theorem State.setEdges_world (v0 v1 : Edge) : (s.setEdges v0 v1).world = s.world := rfl

end Sys2Proof.Machine
end

