-- ==== Sys2Proof/Laws/Ops.lean ====
section
/-! SUPPORT. What each shared operation of Machine/Ops.lean does to each field: cited instead of unfolding it. -/

namespace Sys2Proof.Machine

variable (s : State)

/-! ### setEdge -/

@[simp] theorem State.setEdge_edge (l : Line) (e : Edge) : (s.setEdge l e).edge l = e := by cases l <;> rfl

theorem State.setEdge_edge_ne {l m : Line} (h : m ≠ l) (e : Edge) : (s.setEdge l e).edge m = s.edge m := by
  cases l <;> cases m <;> first | rfl | exact absurd rfl h

/-- setEdge changes one edge detector and nothing else. -/
theorem State.setEdge_frame (l : Line) (e : Edge) :
    ∃ v0 v1, s.setEdge l e = s.setEdges v0 v1 := by
  cases l
  · exact ⟨e, s.edge1, rfl⟩
  · exact ⟨s.edge0, e, rfl⟩

@[simp] theorem State.setEdge_cfg (l : Line) (e : Edge) : (s.setEdge l e).cfg = s.cfg := by cases l <;> rfl
@[simp] theorem State.setEdge_clock (l : Line) (e : Edge) : (s.setEdge l e).clock = s.clock := by cases l <;> rfl
@[simp] theorem State.setEdge_status (l : Line) (e : Edge) : (s.setEdge l e).status = s.status := by cases l <;> rfl
@[simp] theorem State.setEdge_lastSample (l : Line) (e : Edge) : (s.setEdge l e).lastSample = s.lastSample := by cases l <;> rfl
@[simp] theorem State.setEdge_pressDuration (l : Line) (e : Edge) : (s.setEdge l e).pressDuration = s.pressDuration := by cases l <;> rfl
@[simp] theorem State.setEdge_fifo (l : Line) (e : Edge) : (s.setEdge l e).fifo = s.fifo := by cases l <;> rfl
@[simp] theorem State.setEdge_mx (l : Line) (e : Edge) : (s.setEdge l e).mx = s.mx := by cases l <;> rfl
@[simp] theorem State.setEdge_sr (l : Line) (e : Edge) : (s.setEdge l e).sr = s.sr := by cases l <;> rfl
@[simp] theorem State.setEdge_pw (l : Line) (e : Edge) : (s.setEdge l e).pw = s.pw := by cases l <;> rfl
@[simp] theorem State.setEdge_bd (l : Line) (e : Edge) : (s.setEdge l e).bd = s.bd := by cases l <;> rfl
@[simp] theorem State.setEdge_world (l : Line) (e : Edge) : (s.setEdge l e).world = s.world := by cases l <;> rfl

/-- BD's own state is apart from the edge detectors. -/
@[simp] theorem State.setBd_edge (v : Bd) (l : Line) : (s.setBd v).edge l = s.edge l := by cases l <;> rfl

/-! ### respond, reject -/

/-- respond adds one response word at the current boundary and changes nothing else (R83). -/
theorem State.respond_eq (ack : Bool) (v : Data) :
    s.respond ack v = s.setWorld { s.world with responses := (s.world.now, respWord ack v) :: s.world.responses } := rfl

@[simp] theorem State.respond_cfg (a : Bool) (v : Data) : (s.respond a v).cfg = s.cfg := rfl
@[simp] theorem State.respond_clock (a : Bool) (v : Data) : (s.respond a v).clock = s.clock := rfl
@[simp] theorem State.respond_status (a : Bool) (v : Data) : (s.respond a v).status = s.status := rfl
@[simp] theorem State.respond_lastSample (a : Bool) (v : Data) : (s.respond a v).lastSample = s.lastSample := rfl
@[simp] theorem State.respond_pressDuration (a : Bool) (v : Data) : (s.respond a v).pressDuration = s.pressDuration := rfl
@[simp] theorem State.respond_fifo (a : Bool) (v : Data) : (s.respond a v).fifo = s.fifo := rfl
@[simp] theorem State.respond_mx (a : Bool) (v : Data) : (s.respond a v).mx = s.mx := rfl
@[simp] theorem State.respond_sr (a : Bool) (v : Data) : (s.respond a v).sr = s.sr := rfl
@[simp] theorem State.respond_pw (a : Bool) (v : Data) : (s.respond a v).pw = s.pw := rfl
@[simp] theorem State.respond_bd (a : Bool) (v : Data) : (s.respond a v).bd = s.bd := rfl
@[simp] theorem State.respond_edge0 (a : Bool) (v : Data) : (s.respond a v).edge0 = s.edge0 := rfl
@[simp] theorem State.respond_edge1 (a : Bool) (v : Data) : (s.respond a v).edge1 = s.edge1 := rfl
@[simp] theorem State.respond_now (a : Bool) (v : Data) : (s.respond a v).world.now = s.world.now := rfl
@[simp] theorem State.respond_cmds (a : Bool) (v : Data) : (s.respond a v).world.cmds = s.world.cmds := rfl
@[simp] theorem State.respond_levels (a : Bool) (v : Data) : (s.respond a v).world.levels = s.world.levels := rfl
@[simp] theorem State.respond_resets (a : Bool) (v : Data) : (s.respond a v).world.resets = s.world.resets := rfl
@[simp] theorem State.respond_responses (a : Bool) (v : Data) :
    (s.respond a v).world.responses = (s.world.now, respWord a v) :: s.world.responses := rfl

/-- reject changes STATUS and answers 0; nothing else (R300). -/
theorem State.reject_eq (c : Cause) : s.reject c = (s.setStatus (s.status.noteReject c)).respond false 0 := rfl

@[simp] theorem State.reject_status (c : Cause) : (s.reject c).status = s.status.noteReject c := rfl

@[simp] theorem Status.noteReject_badcmd (st : Status) (c : Cause) : (st.noteReject c).badcmd = true := rfl
@[simp] theorem Status.noteReject_evtOvf (st : Status) (c : Cause) : (st.noteReject c).evtOvf = st.evtOvf := rfl
@[simp] theorem Status.noteReject_noMatch (st : Status) (c : Cause) : (st.noteReject c).noMatch = st.noMatch := rfl
@[simp] theorem Status.noteReject_noSample (st : Status) (c : Cause) : (st.noteReject c).noSample = st.noSample := rfl

/-! ### Writes -/

/-- A write of a Clock State register with legal data stores it and acknowledges. -/
theorem State.writeClock_legal (v : Clock) : s.writeClock true v = (s.setClock v).respond true 0 := rfl

/-- A write of a Clock State register with illegal data is rejected with cause 4. -/
theorem State.writeClock_illegal (v : Clock) : s.writeClock false v = s.reject .badValue := rfl

/-- All a write of a Clock State register can do. -/
theorem State.writeClock_cases (legal : Bool) (v : Clock) :
    (legal = true ∧ s.writeClock legal v = (s.setClock v).respond true 0) ∨
      (legal = false ∧ s.writeClock legal v = s.reject .badValue) := by
  cases legal
  · exact .inr ⟨rfl, rfl⟩
  · exact .inl ⟨rfl, rfl⟩

/-- All a write of STATUS can do. -/
theorem State.writeStatus_cases (d : Data) :
    (dataIsStatusClear d = true ∧ s.writeStatus d = (s.setStatus (s.status.clearBits d)).respond true 0) ∨
      (dataIsStatusClear d = false ∧ s.writeStatus d = s.reject .badValue) := by
  unfold State.writeStatus
  cases dataIsStatusClear d
  · exact .inr ⟨rfl, rfl⟩
  · exact .inl ⟨rfl, rfl⟩

/-! ### The event FIFO -/

/-- All a push can do: append below the depth, else set EVT_OVF (R229). -/
theorem State.pushEvent_cases (b : Button) (l : Line) :
    (s.fifo.length < s.cfg.evtDepth ∧ s.pushEvent b l = s.setFifo (s.fifo ++ [⟨b, l⟩])) ∨
      (¬ s.fifo.length < s.cfg.evtDepth ∧ s.pushEvent b l = s.setStatus { s.status with evtOvf := true }) := by
  unfold State.pushEvent
  by_cases h : s.fifo.length < s.cfg.evtDepth
  · exact .inl ⟨h, if_pos h⟩
  · exact .inr ⟨h, if_neg h⟩

@[simp] theorem State.pushEvent_bd (b : Button) (l : Line) : (s.pushEvent b l).bd = s.bd := by
  rcases s.pushEvent_cases b l with ⟨_, h⟩ | ⟨_, h⟩ <;> rw [h] <;> rfl

@[simp] theorem State.pushEvent_cfg (b : Button) (l : Line) : (s.pushEvent b l).cfg = s.cfg := by
  rcases s.pushEvent_cases b l with ⟨_, h⟩ | ⟨_, h⟩ <;> rw [h] <;> rfl

@[simp] theorem State.pushEvent_edge (b : Button) (l m : Line) : (s.pushEvent b l).edge m = s.edge m := by
  rcases s.pushEvent_cases b l with ⟨_, h⟩ | ⟨_, h⟩ <;> rw [h] <;> cases m <;> rfl

@[simp] theorem State.pushEvent_pressDuration (b : Button) (l : Line) : (s.pushEvent b l).pressDuration = s.pressDuration := by
  rcases s.pushEvent_cases b l with ⟨_, h⟩ | ⟨_, h⟩ <;> rw [h] <;> rfl

/-! ### Inputs -/

/-- The command taken at boundary k is the first one issued there. -/
theorem takeCmd_cons_now (k : Nat) (w : Word) (cs : List (Nat × Word)) : takeCmd k ((k, w) :: cs) = some (w, cs) := by
  simp [takeCmd]

/-- No command is taken at a boundary at which none is issued. -/
theorem takeCmd_eq_none {k : Nat} {cs : List (Nat × Word)} : takeCmd k cs = none ↔ ∀ p ∈ cs, p.1 ≠ k := by
  induction cs with
  | nil => simp [takeCmd]
  | cons p rest ih =>
    obtain ⟨b, w⟩ := p
    by_cases hb : b = k
    · simp [takeCmd, hb]
    · rw [List.forall_mem_cons, ← ih]
      cases h : takeCmd k rest <;> simp [takeCmd, hb, h]

/-- The commands left are the commands before, less the one taken. -/
theorem takeCmd_split {k : Nat} {cs rest : List (Nat × Word)} {w : Word} (h : takeCmd k cs = some (w, rest)) :
    ∃ a b, cs = a ++ (k, w) :: b ∧ rest = a ++ b ∧ ∀ p ∈ a, p.1 ≠ k := by
  induction cs generalizing rest with
  | nil => simp [takeCmd] at h
  | cons p more ih =>
    obtain ⟨b, w'⟩ := p
    by_cases hb : b = k
    · simp only [takeCmd, hb, if_true, Option.some.injEq, Prod.mk.injEq] at h
      obtain ⟨rfl, rfl⟩ := h
      exact ⟨[], more, by simp [hb], rfl, by simp⟩
    · cases hm : takeCmd k more with
      | none => simp [takeCmd, hb, hm] at h
      | some q =>
        obtain ⟨w₁, r₁⟩ := q
        simp only [takeCmd, hb, if_false, hm, Option.some.injEq, Prod.mk.injEq] at h
        obtain ⟨rfl, rfl⟩ := h
        obtain ⟨a, c, rfl, rfl, ha⟩ := ih hm
        exact ⟨(b, w') :: a, c, rfl, rfl, by simpa [hb] using ha⟩

@[simp] theorem State.nextBoundary_now : s.nextBoundary.world.now = s.world.now + 1 := rfl
@[simp] theorem State.nextBoundary_levels : s.nextBoundary.world.levels = s.world.levels := rfl

/-! ### Reset -/

/-- R330: under RESET everything but the configuration and the record of the world is at its reset value. -/
theorem State.resetBoundary_eq :
    s.resetBoundary = { State.resetWith s.cfg with world := { s.world with now := s.world.now + 1 } } := rfl

end Sys2Proof.Machine
end

