-- ==== Sys2Proof/Laws/Buttons.lean ====
section
/-! SUPPORT. What the button decoder's operations may change, once for all of them: nothing outside BD's state, its edge
detectors and the registers it writes (43_button_decoder.md R210). -/

namespace Sys2Proof.Machine

/-- t differs from s at most in what BD writes (R210). -/
def BdWrites (s t : State) : Prop :=
  t.cfg = s.cfg ∧ t.clock = s.clock ∧ t.mx = s.mx ∧ t.sr = s.sr ∧ t.pw = s.pw ∧ t.world = s.world

theorem BdWrites.refl (s : State) : BdWrites s s := ⟨rfl, rfl, rfl, rfl, rfl, rfl⟩

theorem BdWrites.trans {s t u : State} (h : BdWrites s t) (k : BdWrites t u) : BdWrites s u :=
  ⟨k.1.trans h.1, k.2.1.trans h.2.1, k.2.2.1.trans h.2.2.1, k.2.2.2.1.trans h.2.2.2.1, k.2.2.2.2.1.trans h.2.2.2.2.1,
    k.2.2.2.2.2.trans h.2.2.2.2.2⟩

theorem bdWrites_setBd (s : State) (v : Bd) : BdWrites s (s.setBd v) := ⟨rfl, rfl, rfl, rfl, rfl, rfl⟩

theorem bdWrites_setEdges (s : State) (v0 v1 : Edge) : BdWrites s (s.setEdges v0 v1) := ⟨rfl, rfl, rfl, rfl, rfl, rfl⟩

theorem bdWrites_beginService (s : State) (l : Line) : BdWrites s (beginService s l) := by
  cases l <;> exact ⟨rfl, rfl, rfl, rfl, rfl, rfl⟩

/-- All idle_check can do: take line 0's edge, take line 1's, or nothing (R214). -/
theorem idleCheck_cases (s : State) :
    (s.edge0.pending = true ∧ idleCheck s = beginService s .l0) ∨
      (s.edge0.pending = false ∧ s.edge1.pending = true ∧ idleCheck s = beginService s .l1) ∨
      (s.edge0.pending = false ∧ s.edge1.pending = false ∧ idleCheck s = s) := by
  unfold idleCheck
  cases s.edge0.pending
  · cases s.edge1.pending
    · exact .inr (.inr ⟨rfl, rfl, rfl⟩)
    · exact .inr (.inl ⟨rfl, rfl, rfl⟩)
  · exact .inl ⟨rfl, rfl⟩

theorem bdWrites_idleCheck (s : State) : BdWrites s (idleCheck s) := by
  rcases idleCheck_cases s with ⟨-, h⟩ | ⟨-, -, h⟩ | ⟨-, -, h⟩ <;> rw [h]
  · exact bdWrites_beginService s .l0
  · exact bdWrites_beginService s .l1
  · exact .refl s

/-- All enter_idle can do: take the edge of a pending line at once, or rest in IDLE with none pending (R225). -/
theorem enterIdle_cases (s : State) :
    (∃ l, (s.edge l).pending = true ∧ enterIdle s = beginService (s.setBd { s.bd with phase := .idle }) l) ∨
      ((∀ l, (s.edge l).pending = false) ∧ enterIdle s = s.setBd { s.bd with phase := .idle }) := by
  rcases idleCheck_cases (s.setBd { s.bd with phase := .idle }) with ⟨h0, h⟩ | ⟨-, h1, h⟩ | ⟨h0, h1, h⟩
  · exact .inl ⟨.l0, h0, h⟩
  · exact .inl ⟨.l1, h1, h⟩
  · exact .inr ⟨fun l => by cases l <;> assumption, h⟩

theorem bdWrites_enterIdle (s : State) : BdWrites s (enterIdle s) := (bdWrites_setBd s _).trans (bdWrites_idleCheck _)

theorem bdWrites_pushEvent (s : State) (b : Button) (l : Line) : BdWrites s (s.pushEvent b l) := by
  rcases s.pushEvent_cases b l with ⟨-, h⟩ | ⟨-, h⟩ <;> rw [h] <;> exact ⟨rfl, rfl, rfl, rfl, rfl, rfl⟩

/-- All classify can do with a combined sample (R222). -/
theorem classifySample_cases (s : State) (x : Option Nat) :
    (x = none ∧ classifySample s x =
      (s.setLastSample (packLastSample false s.bd.line false 0)).setStatus { s.status with noSample := true }) ∨
    (∃ v, x = some v ∧ lookupButton s.cfg s.bd.line v (s.cfg.table s.bd.line) = none ∧ classifySample s x =
      (s.setLastSample (packLastSample false s.bd.line true v)).setStatus { s.status with noMatch := true }) ∨
    (∃ v b, x = some v ∧ lookupButton s.cfg s.bd.line v (s.cfg.table s.bd.line) = some b ∧ classifySample s x =
      (s.setLastSample (packLastSample true s.bd.line true v)).pushEvent b s.bd.line) := by
  cases x with
  | none => exact .inl ⟨rfl, rfl⟩
  | some v =>
    cases h : lookupButton s.cfg s.bd.line v (s.cfg.table s.bd.line) with
    | none => exact .inr (.inl ⟨v, rfl, h, by simp only [classifySample, h]⟩)
    | some b => exact .inr (.inr ⟨v, b, rfl, h, by simp only [classifySample, h]⟩)

theorem bdWrites_classify (s : State) : BdWrites s (classify s) := by
  unfold classify
  rcases classifySample_cases s (combineSamples s.cfg s.bd.s1 s.bd.s2) with ⟨-, h⟩ | ⟨v, -, -, h⟩ | ⟨v, b, -, -, h⟩ <;> rw [h]
  · exact ⟨rfl, rfl, rfl, rfl, rfl, rfl⟩
  · exact ⟨rfl, rfl, rfl, rfl, rfl, rfl⟩
  · exact BdWrites.trans ⟨rfl, rfl, rfl, rfl, rfl, rfl⟩ (bdWrites_pushEvent _ b _)

@[simp] theorem classify_bd (s : State) : (classify s).bd = s.bd := by
  unfold classify
  rcases classifySample_cases s (combineSamples s.cfg s.bd.s1 s.bd.s2) with ⟨-, h⟩ | ⟨v, -, -, h⟩ | ⟨v, b, -, -, h⟩ <;> rw [h]
  · rfl
  · rfl
  · exact State.pushEvent_bd _ b _

@[simp] theorem classify_edge (s : State) (l : Line) : (classify s).edge l = s.edge l := by
  unfold classify
  rcases classifySample_cases s (combineSamples s.cfg s.bd.s1 s.bd.s2) with ⟨-, h⟩ | ⟨v, -, -, h⟩ | ⟨v, b, -, -, h⟩ <;> rw [h]
  · cases l <;> rfl
  · cases l <;> rfl
  · rw [State.pushEvent_edge]
    cases l <;> rfl

@[simp] theorem classify_pressDuration (s : State) : (classify s).pressDuration = s.pressDuration := by
  unfold classify
  rcases classifySample_cases s (combineSamples s.cfg s.bd.s1 s.bd.s2) with ⟨-, h⟩ | ⟨v, -, -, h⟩ | ⟨v, b, -, -, h⟩ <;> rw [h]
  · rfl
  · rfl
  · exact State.pushEvent_pressDuration _ b _

theorem bdWrites_bdPhaseStep (s : State) : BdWrites s (bdPhaseStep s) := by
  unfold bdPhaseStep
  cases s.bd.phase <;> dsimp only
  · exact bdWrites_idleCheck s
  · unfold debounceStep
    split
    · split
      · exact bdWrites_setBd s _
      · exact (bdWrites_setBd s _).trans (bdWrites_enterIdle _)
    · exact bdWrites_setBd s _
  · unfold dischargeStep
    split <;> exact bdWrites_setBd s _
  · unfold measureStep1
    split
    · unfold endMeasure1
      split
      · exact BdWrites.trans (bdWrites_setBd s _) (bdWrites_setBd _ _)
      · exact ((bdWrites_setBd s _).trans (bdWrites_classify _)).trans (bdWrites_setBd _ _)
    · exact bdWrites_setBd s _
  · unfold dischargeStep
    split <;> exact bdWrites_setBd s _
  · unfold measureStep2
    split
    · exact ((bdWrites_setBd s _).trans (bdWrites_classify _)).trans (bdWrites_setBd _ _)
    · exact bdWrites_setBd s _
  · unfold holdStep
    split
    · exact ⟨rfl, rfl, rfl, rfl, rfl, rfl⟩
    · split
      · exact ⟨rfl, rfl, rfl, rfl, rfl, rfl⟩
      · exact bdWrites_setBd s _
  · unfold finalDischargeStep
    split
    · exact (bdWrites_setBd s _).trans (bdWrites_enterIdle _)
    · exact bdWrites_setBd s _

/-- BD's step writes only what R210 lists. -/
theorem bdWrites_bdStep (s : State) : BdWrites s (bdStep s) :=
  (bdWrites_bdPhaseStep s).trans ⟨rfl, rfl, rfl, rfl, rfl, rfl⟩

/-- The edge detectors write only the two detectors (R213). -/
theorem edgeDetect_eq (s : State) :
    edgeDetect s = { s with edge0 := s.edge0.sample (s.level .l0), edge1 := s.edge1.sample (s.level .l1) } := rfl

/-- The level of a line depends only on the record of the world (R211). -/
theorem State.level_congr {s t : State} (h : t.world = s.world) (l : Line) : t.level l = s.level l := by
  unfold State.level; rw [h]

/-- PRESS_DURATION as a number: the duration's low 23 bits, and TIMEOUT in bit 23 (R32). -/
theorem packPressDuration_toNat (timeout : Bool) (d : Nat) :
    (packPressDuration timeout d).toNat = d % 2 ^ 23 + if timeout then 2 ^ 23 else 0 := by
  have h : d % 2 ^ 23 < 2 ^ 23 := Nat.mod_lt _ (by decide)
  have hd : ((BitVec.ofNat 23 d).setWidth 24).toNat = d % 2 ^ 23 := by
    rw [BitVec.toNat_setWidth, BitVec.toNat_ofNat, Nat.mod_eq_of_lt (by omega)]
  unfold packPressDuration flagBit
  rw [BitVec.toNat_or, hd]
  cases timeout
  · simp
  · show d % 2 ^ 23 ||| 2 ^ 23 = d % 2 ^ 23 + 2 ^ 23
    rw [Nat.or_comm, Nat.add_comm]
    simpa using (Nat.two_pow_add_eq_or_of_lt h 1).symm

/-! ### Fields after emitting the pin modes -/

@[simp] theorem bdEmit_fifo (s : State) : (bdEmit s).fifo = s.fifo := rfl
@[simp] theorem bdEmit_status (s : State) : (bdEmit s).status = s.status := rfl
@[simp] theorem bdEmit_lastSample (s : State) : (bdEmit s).lastSample = s.lastSample := rfl
@[simp] theorem bdEmit_pressDuration (s : State) : (bdEmit s).pressDuration = s.pressDuration := rfl
@[simp] theorem bdEmit_phase (s : State) : (bdEmit s).bd.phase = s.bd.phase := rfl
@[simp] theorem bdEmit_line (s : State) : (bdEmit s).bd.line = s.bd.line := rfl
@[simp] theorem bdEmit_rem (s : State) : (bdEmit s).bd.rem = s.bd.rem := rfl
@[simp] theorem bdEmit_cnt (s : State) : (bdEmit s).bd.cnt = s.bd.cnt := rfl
@[simp] theorem bdEmit_s1 (s : State) : (bdEmit s).bd.s1 = s.bd.s1 := rfl
@[simp] theorem bdEmit_s2 (s : State) : (bdEmit s).bd.s2 = s.bd.s2 := rfl
@[simp] theorem bdEmit_pending (s : State) (l : Line) : ((bdEmit s).edge l).pending = (s.edge l).pending := by cases l <;> rfl

end Sys2Proof.Machine
end

