-- ==== Sys2Proof/Laws/Decode.lean ====
section
/-! SUPPORT. The fields of a word of format HC (30_encoding.md R80), and the word as its fields. -/

namespace Sys2Proof

/-- Bit j of a word of format HC, by field. -/
theorem hcWord_getLsbD (op : Bool) (a : BitVec 4) (d : Data) (j : Nat) : (hcWord op a d).getLsbD j =
    if j < 24 then d.getLsbD j else if j - 24 < 4 then a.getLsbD (j - 24)
    else if j - 24 - 4 < 3 then false else (BitVec.ofBool op).getLsbD (j - 24 - 4 - 3) := by
  have h1 : (hcWord op a d).getLsbD j = if j < 24 then d.getLsbD j
    else (BitVec.ofBool op ++ 0#3 ++ a).getLsbD (j - 24) := BitVec.getLsbD_append
  have h2 (k : Nat) : (BitVec.ofBool op ++ 0#3 ++ a).getLsbD k = if k < 4 then a.getLsbD k
    else (BitVec.ofBool op ++ 0#3).getLsbD (k - 4) := BitVec.getLsbD_append
  have h3 (k : Nat) : (BitVec.ofBool op ++ 0#3).getLsbD k = if k < 3 then (0#3).getLsbD k
    else (BitVec.ofBool op).getLsbD (k - 3) := BitVec.getLsbD_append
  rw [h1, h2, h3, BitVec.getLsbD_zero]

@[simp] theorem fieldOp_hcWord (op : Bool) (a : BitVec 4) (d : Data) : fieldOp (hcWord op a d) = op := by
  unfold fieldOp; rw [hcWord_getLsbD]; cases op <;> rfl

@[simp] theorem fieldRsv_hcWord (op : Bool) (a : BitVec 4) (d : Data) : fieldRsv (hcWord op a d) = 0 := by
  apply BitVec.eq_of_getLsbD_eq
  intro j hj
  unfold fieldRsv
  rw [BitVec.getLsbD_extractLsb', hcWord_getLsbD]
  simp [hj, show ¬ 28 + j < 24 by omega, show ¬ 28 + j - 24 < 4 by omega, show 28 + j - 24 - 4 < 3 by omega]

@[simp] theorem fieldAddr_hcWord (op : Bool) (a : BitVec 4) (d : Data) : fieldAddr (hcWord op a d) = a := by
  apply BitVec.eq_of_getLsbD_eq
  intro j hj
  unfold fieldAddr
  rw [BitVec.getLsbD_extractLsb', hcWord_getLsbD]
  simp [hj]

@[simp] theorem fieldData_hcWord (op : Bool) (a : BitVec 4) (d : Data) : fieldData (hcWord op a d) = d := by
  apply BitVec.eq_of_getLsbD_eq
  intro j hj
  unfold fieldData
  rw [BitVec.getLsbD_extractLsb', hcWord_getLsbD]
  simp [hj]

/-- A word with RSV = 0 is the format HC of its own fields. -/
theorem eq_hcWord {w : Word} (h : fieldRsv w = 0) : w = hcWord (fieldOp w) (fieldAddr w) (fieldData w) := by
  apply BitVec.eq_of_getLsbD_eq
  intro j hj
  rw [hcWord_getLsbD]
  unfold fieldOp fieldAddr fieldData
  by_cases h1 : j < 24
  · simp [h1]
  by_cases h2 : j - 24 < 4
  · simp [h1, h2, show 24 + (j - 24) = j by omega]
  by_cases h3 : j - 24 - 4 < 3
  · have hb := congrArg (fun v => v.getLsbD (j - 28)) h
    unfold fieldRsv at hb
    simp only [BitVec.getLsbD_extractLsb', show 28 + (j - 28) = j by omega, show j - 28 < 3 by omega] at hb
    simpa [h1, h2, h3] using hb
  · have hj31 : j = 31 := by omega
    subst hj31
    simp

/-- What the decoder answers on a word of format HC with RSV = 0 (R82). -/
theorem decode_hcWord (op : Bool) (a : BitVec 4) (d : Data) :
    decode (hcWord op a d) = if op then decodeWrite a d else decodeRead a := by
  unfold decode
  rw [if_neg (by rw [fieldRsv_hcWord]; exact not_not_intro rfl), fieldOp_hcWord, fieldAddr_hcWord, fieldData_hcWord]

/-- A word the decoder takes for a command has RSV = 0 (R82). -/
theorem fieldRsv_of_decode {w : Word} {i : Instr} (h : decode w = .cmd i) : fieldRsv w = 0 := by
  by_contra hr
  rw [decode, if_pos hr] at h
  cases h

end Sys2Proof
end

