-- ==== Sys2Proof/Laws/Operands.lean ====
section
/-! SUPPORT. The legality of DATA as a condition on its value (10_state.md section 2). -/

namespace Sys2Proof.Machine

theorem dataAtMost_iff (hi : Nat) (d : Data) : dataAtMost hi d = true ↔ d.toNat ≤ hi := decide_eq_true_iff

theorem dataIsRate_iff (d : Data) : dataIsRate d = true ↔ 1 ≤ d.toNat ∧ d.toNat ≤ 142857 := by
  unfold dataIsRate
  rw [Bool.and_eq_true, decide_eq_true_iff, decide_eq_true_iff]

theorem dataIsStatusClear_iff (d : Data) : dataIsStatusClear d = true ↔ d.toNat < 16 := by
  have hv : (d.extractLsb' 4 20).toNat = d.toNat / 16 := by
    have := d.isLt
    simp only [BitVec.extractLsb'_toNat, Nat.shiftRight_eq_div_pow]
    omega
  unfold dataIsStatusClear
  rw [beq_iff_eq, ← BitVec.toNat_inj, hv]
  show d.toNat / 16 = 0 ↔ _
  omega

/-- A legal one-bit operand is 0 or 1, and its low bit says which. -/
theorem dataBit_eq {d : Data} (h : d.toNat ≤ 1) : dataBit d = decide (d.toNat = 1) := by
  have hd : d = 0 ∨ d = 1 := by
    rcases Nat.le_one_iff_eq_zero_or_eq_one.1 h with h0 | h1
    · exact .inl (BitVec.eq_of_toNat_eq h0)
    · exact .inr (BitVec.eq_of_toNat_eq h1)
  rcases hd with rfl | rfl <;> rfl

end Sys2Proof.Machine
end

