-- ==== Sys2Proof/Laws/PerInstr.lean ====
section
/-! SUPPORT. One lemma per command for the family TableRow: the word the encoder writes is one of the command's row of the
opcode map (30_encoding.md R85). -/

namespace Sys2Proof.Laws.TableRow

/-- The `match` column of R85, as the table prints it. -/
def rowMatch : Instr → Word
  | .rdHours => 0x00000000
  | .rdMinutes => 0x01000000
  | .rdHasAlarm => 0x02000000
  | .rdAlarmEnabled => 0x03000000
  | .rdError => 0x04000000
  | .rdRegularDim => 0x05000000
  | .rdCeilingDim => 0x06000000
  | .rdRefreshRate => 0x07000000
  | .rdCeilingUp => 0x08000000
  | .rdStatus => 0x09000000
  | .rdEvent => 0x0A000000
  | .rdLastSample => 0x0B000000
  | .rdPressDuration => 0x0C000000
  | .wrHours _ => 0x80000000
  | .wrMinutes _ => 0x81000000
  | .wrHasAlarm _ => 0x82000000
  | .wrAlarmEnabled _ => 0x83000000
  | .wrError _ => 0x84000000
  | .wrRegularDim _ => 0x85000000
  | .wrCeilingDim _ => 0x86000000
  | .wrRefreshRate _ => 0x87000000
  | .wrCeilingUp _ => 0x88000000
  | .wrStatus _ => 0x89000000

/-- (w & mask) == match for the encoded word, the mask of every row being 0xFF000000 (R85). -/
def Statement (i : Instr) : Prop := encode i &&& 0xFF000000#32 = rowMatch i

/-- Masking a word of format HC leaves OP and ADDR. -/
theorem hcWord_masked (op : Bool) (a : BitVec 4) (d : Data) : hcWord op a d &&& 0xFF000000#32 = hcWord op a 0 := by
  apply BitVec.eq_of_getLsbD_eq
  intro j hj
  have hm : ∀ k : Fin 32, (0xFF000000#32).getLsbD k.val = decide (24 ≤ k.val) := by decide
  have app (d : Data) : (hcWord op a d).getLsbD j =
      if j < 24 then d.getLsbD j else (BitVec.ofBool op ++ 0#3 ++ a).getLsbD (j - 24) := BitVec.getLsbD_append
  rw [BitVec.getLsbD_and, hm ⟨j, hj⟩, app, app]
  by_cases h : j < 24
  · simp [h]
  · simp [h, Nat.le_of_not_lt h]

theorem rdHours : Statement .rdHours := rfl
theorem rdMinutes : Statement .rdMinutes := rfl
theorem rdHasAlarm : Statement .rdHasAlarm := rfl
theorem rdAlarmEnabled : Statement .rdAlarmEnabled := rfl
theorem rdError : Statement .rdError := rfl
theorem rdRegularDim : Statement .rdRegularDim := rfl
theorem rdCeilingDim : Statement .rdCeilingDim := rfl
theorem rdRefreshRate : Statement .rdRefreshRate := rfl
theorem rdCeilingUp : Statement .rdCeilingUp := rfl
theorem rdStatus : Statement .rdStatus := rfl
theorem rdEvent : Statement .rdEvent := rfl
theorem rdLastSample : Statement .rdLastSample := rfl
theorem rdPressDuration : Statement .rdPressDuration := rfl
theorem wrHours (d : Data) : Statement (.wrHours d) := (hcWord_masked true 0x0 d).trans rfl
theorem wrMinutes (d : Data) : Statement (.wrMinutes d) := (hcWord_masked true 0x1 d).trans rfl
theorem wrHasAlarm (d : Data) : Statement (.wrHasAlarm d) := (hcWord_masked true 0x2 d).trans rfl
theorem wrAlarmEnabled (d : Data) : Statement (.wrAlarmEnabled d) := (hcWord_masked true 0x3 d).trans rfl
theorem wrError (d : Data) : Statement (.wrError d) := (hcWord_masked true 0x4 d).trans rfl
theorem wrRegularDim (d : Data) : Statement (.wrRegularDim d) := (hcWord_masked true 0x5 d).trans rfl
theorem wrCeilingDim (d : Data) : Statement (.wrCeilingDim d) := (hcWord_masked true 0x6 d).trans rfl
theorem wrRefreshRate (d : Data) : Statement (.wrRefreshRate d) := (hcWord_masked true 0x7 d).trans rfl
theorem wrCeilingUp (d : Data) : Statement (.wrCeilingUp d) := (hcWord_masked true 0x8 d).trans rfl
theorem wrStatus (d : Data) : Statement (.wrStatus d) := (hcWord_masked true 0x9 d).trans rfl

end Sys2Proof.Laws.TableRow
end

