-- ==== Sys2Proof/Laws/Sequencer.lean ====
section
/-! SUPPORT. The bounded loop `settle` and the PWM arithmetic: what they answer, once for all three display units. -/

namespace Sys2Proof.Machine

/-- A unit whose phase still lasts does not advance. -/
theorem settle_of_rem {α : Type} {rem : α → Nat} {adv : α → α} {a : α} (n : Nat) (h : rem a ≠ 0) :
    settle rem adv n a = some a := by
  cases n <;> simp [settle, h]

/-- Each zero-length phase is left by one advance. -/
theorem settle_succ {α : Type} {rem : α → Nat} {adv : α → α} {a : α} (n : Nat) (h : rem a = 0) :
    settle rem adv (n + 1) a = settle rem adv n (adv a) := by
  simp [settle, h]

/-- All a settled unit can be: it is some advances on, every phase left had length zero, and the phase held lasts. -/
theorem settle_spec {α : Type} {rem : α → Nat} {adv : α → α} {n : Nat} {a b : α} (h : settle rem adv n a = some b) :
    ∃ j ≤ n, b = adv^[j] a ∧ rem b ≠ 0 ∧ ∀ i < j, rem (adv^[i] a) = 0 := by
  induction n generalizing a with
  | zero =>
    by_cases h0 : rem a = 0
    · simp [settle, h0] at h
    · simp only [settle, h0, if_false, Option.some.injEq] at h
      exact ⟨0, le_rfl, h.symm, h ▸ h0, by simp⟩
  | succ n ih =>
    by_cases h0 : rem a = 0
    · rw [settle_succ n h0] at h
      obtain ⟨j, hj, hb, hr, hz⟩ := ih h
      refine ⟨j + 1, by omega, by simpa using hb, hr, ?_⟩
      intro i hi
      cases i with
      | zero => exact h0
      | succ i => simpa using hz i (by omega)
    · rw [settle_of_rem _ h0] at h
      exact ⟨0, by omega, by simpa using h.symm, by simp_all, by simp⟩

/-- A property of the unit that every advance keeps holds of the settled unit. -/
theorem settle_keeps {α : Type} {rem : α → Nat} {adv : α → α} {P : α → Prop} (hP : ∀ a, P a → P (adv a)) {n : Nat}
    {a b : α} (ha : P a) (h : settle rem adv n a = some b) : P b := by
  obtain ⟨j, -, rfl, -, -⟩ := settle_spec h
  clear h
  induction j generalizing a with
  | zero => exact ha
  | succ j ih => simpa using ih (hP a ha)

/-! ### R140 -/

/-- `on_total <= period_us` for a percentage. -/
theorem pwmTiming_onTotal_le {rate dim : Nat} (h : dim ≤ 100) : (pwmTiming rate dim).onTotal ≤ (pwmTiming rate dim).period := by
  show periodUs rate * dim / 100 ≤ periodUs rate
  exact Nat.div_le_of_le_mul (by rw [Nat.mul_comm 100]; exact Nat.mul_le_mul_left _ h)

/-- `period_us` >= 7 for every legal rate (R28). -/
theorem periodUs_ge {rate : Nat} (h1 : 1 ≤ rate) (h2 : rate ≤ 142857) : 7 ≤ periodUs rate := by
  unfold periodUs
  rw [Nat.le_div_iff_mul_le (by omega)]
  omega

/-- `period_us` <= 1000000. -/
theorem periodUs_le (rate : Nat) : periodUs rate ≤ 1000000 := Nat.div_le_self _ _

end Sys2Proof.Machine
end

