-- ==== Sys2Proof/Laws/Step.lean ====
section
/-! SUPPORT. All a step can do: a boundary under RESET, one command, or one tick; and all a tick can do, unit by unit. -/

namespace Sys2Proof.Machine

/-- The response word of a read as a number (R83). -/
theorem respWord_true (v : Data) : respWord true v = BitVec.ofNat 32 (2 ^ 31 + v.toNat) := by
  apply BitVec.eq_of_toNat_eq
  have h : (respWord true v).toNat = (BitVec.ofBool true ++ 0#7).toNat <<< 24 ||| v.toNat := BitVec.toNat_append _ _
  rw [h, ← Nat.shiftLeft_add_eq_or_of_lt v.isLt]
  simp only [BitVec.toNat_ofNat]
  have h8 : (BitVec.ofBool true ++ 0#7).toNat <<< 24 = 2 ^ 31 := by decide
  have hv := v.isLt
  omega

/-- Reading a register answers its value (R260). -/
theorem State.readReg_eq (s : State) (r : Reg) {n : Nat} (h : (s.regValue r).toNat = n) :
    s.readReg r = s.answered (BitVec.ofNat 32 (2 ^ 31 + n)) := by
  subst h
  rw [← respWord_true]
  rfl

/-- The rejection of R300 in the words of Safety. -/
theorem State.reject_eq_rejected (s : State) (c : Cause) : s.reject c = s.rejected (causeCode c) := rfl

/-- All a step can do (log 6). -/
theorem step_cases (s : State) :
    (s.resetAsserted = true ∧ step s = .next s.resetBoundary) ∨
      (s.resetAsserted = false ∧ ∃ w rest, s.nextCmd = some (w, rest) ∧ step s = execWord w (s.setCmds rest)) ∨
      (s.resetAsserted = false ∧ s.nextCmd = none ∧ step s = tick s) := by
  unfold step stepOnce
  cases hr : s.resetAsserted
  · cases hc : s.nextCmd with
    | none => exact .inr (.inr ⟨rfl, rfl, rfl⟩)
    | some p => exact .inr (.inl ⟨rfl, p.1, p.2, rfl, rfl⟩)
  · exact .inl ⟨rfl, rfl⟩

/-- A run's first step, for any machine of the host's interface. -/
theorem core_run_succ (M : Host.Core) {s t : M.State} (n : Nat) (h : M.step s = .next t) : M.run (n + 1) s = M.run n t := by
  simp only [Host.Core.run, h]

/-- A run's first step. -/
theorem run_succ {s t : State} (n : Nat) (h : step s = .next t) :
    Host.Core.run Sys2Proof.core (n + 1) s = Host.Core.run Sys2Proof.core n t :=
  core_run_succ Sys2Proof.core n h

/-- All executing a word can do (R260). -/
theorem execWord_cases (w : Word) (s : State) :
    (∃ i, decode w = .cmd i ∧ execWord w s = exec i s) ∨
      (∃ c, decode w = .reject c ∧ execWord w s = .next (s.reject c)) := by
  unfold execWord
  cases decode w with
  | cmd i => exact .inl ⟨i, rfl, rfl⟩
  | reject c => exact .inr ⟨c, rfl, rfl⟩

/-- All a tick that answers can do: each unit's step has answered (R67). -/
theorem tick_next {s t : State} (h : tick s = .next t) :
    ∃ m r p, mxStep s.cfg s.clock s.mx = some m ∧ srStep s.cfg s.clock s.sr = some r ∧
      pwStep s.cfg s.clock s.pw = some p ∧ t = finishTick s m r p := by
  unfold tick at h
  cases hm : mxStep s.cfg s.clock s.mx with
  | none => rw [hm] at h; cases h
  | some m =>
    cases hr : srStep s.cfg s.clock s.sr with
    | none => rw [hm, hr] at h; cases h
    | some r =>
      cases hp : pwStep s.cfg s.clock s.pw with
      | none => rw [hm, hr, hp] at h; cases h
      | some p =>
        rw [hm, hr, hp] at h
        exact ⟨m, r, p, rfl, rfl, rfl, (Host.Outcome.next.inj h).symm⟩

/-- A unit whose steps all answer makes the tick answer. -/
theorem tick_of_steps {s : State} {m : Mx} {r : Sr} {p : Pw} (hm : mxStep s.cfg s.clock s.mx = some m)
    (hr : srStep s.cfg s.clock s.sr = some r) (hp : pwStep s.cfg s.clock s.pw = some p) :
    tick s = .next (finishTick s m r p) := by
  unfold tick
  rw [hm, hr, hp]

/-- The state BD steps on: the edges sampled, the three display units stepped. -/
def beforeBd (s : State) (m : Mx) (r : Sr) (p : Pw) : State := (((edgeDetect s).setMx m).setSr r).setPw p

theorem finishTick_eq (s : State) (m : Mx) (r : Sr) (p : Pw) :
    finishTick s m r p = (bdStep (beforeBd s m r p)).nextBoundary := rfl

@[simp] theorem finishTick_cfg (s : State) (m : Mx) (r : Sr) (p : Pw) : (finishTick s m r p).cfg = s.cfg :=
  (bdWrites_bdStep (beforeBd s m r p)).1
@[simp] theorem finishTick_clock (s : State) (m : Mx) (r : Sr) (p : Pw) : (finishTick s m r p).clock = s.clock :=
  (bdWrites_bdStep (beforeBd s m r p)).2.1
@[simp] theorem finishTick_mx (s : State) (m : Mx) (r : Sr) (p : Pw) : (finishTick s m r p).mx = m :=
  (bdWrites_bdStep (beforeBd s m r p)).2.2.1
@[simp] theorem finishTick_sr (s : State) (m : Mx) (r : Sr) (p : Pw) : (finishTick s m r p).sr = r :=
  (bdWrites_bdStep (beforeBd s m r p)).2.2.2.1
@[simp] theorem finishTick_pw (s : State) (m : Mx) (r : Sr) (p : Pw) : (finishTick s m r p).pw = p :=
  (bdWrites_bdStep (beforeBd s m r p)).2.2.2.2.1
@[simp] theorem finishTick_world (s : State) (m : Mx) (r : Sr) (p : Pw) :
    (finishTick s m r p).world = { s.world with now := s.world.now + 1 } :=
  congrArg (fun w : World => { w with now := w.now + 1 }) (bdWrites_bdStep (beforeBd s m r p)).2.2.2.2.2

/-- BD sees the level of the boundary, whatever the display units did. -/
@[simp] theorem beforeBd_level (s : State) (m : Mx) (r : Sr) (p : Pw) (l : Line) : (beforeBd s m r p).level l = s.level l := rfl

/-- All an MX step that answers can do (R145). -/
theorem mxStep_some {c : Config} {k : Clock} {m t : Mx} (h : mxStep c k m = some t) :
    ∃ m', settle Mx.rem (mxAdvance c k) settleBound { m with rem := m.rem - 1 } = some m' ∧ t = mxEmit c m' := by
  unfold mxStep at h
  split at h
  · next m' hm => exact ⟨m', hm, (Option.some.inj h).symm⟩
  · cases h

/-- All an SR step that answers can do (R176). -/
theorem srStep_some {c : Config} {k : Clock} {r t : Sr} (h : srStep c k r = some t) :
    ∃ r', settle Sr.rem (srAdvance c k) settleBound { r with rem := r.rem - 1 } = some r' ∧ t = srEmit r' := by
  unfold srStep at h
  split at h
  · next r' hr => exact ⟨r', hr, (Option.some.inj h).symm⟩
  · cases h

/-- All a PW step that answers can do (R187). -/
theorem pwStep_some {c : Config} {k : Clock} {p t : Pw} (h : pwStep c k p = some t) :
    ∃ p', settle Pw.rem (pwAdvance k) settleBound { p with rem := p.rem - 1 } = some p' ∧ t = pwEmit c p' := by
  unfold pwStep at h
  split at h
  · next p' hp => exact ⟨p', hp, (Option.some.inj h).symm⟩
  · cases h

/-- A phase that lasts goes on for one tick more (R145). -/
theorem mxStep_of_lt {c : Config} {k : Clock} {m : Mx} (h : 2 ≤ m.rem) :
    mxStep c k m = some (mxEmit c { m with rem := m.rem - 1 }) := by
  unfold mxStep
  rw [settle_of_rem _ (by show m.rem - 1 ≠ 0; omega)]

/-- A phase that lasts goes on for one tick more (R176). -/
theorem srStep_of_lt {c : Config} {k : Clock} {r : Sr} (h : 2 ≤ r.rem) :
    srStep c k r = some (srEmit { r with rem := r.rem - 1 }) := by
  unfold srStep
  rw [settle_of_rem _ (by show r.rem - 1 ≠ 0; omega)]

/-- A phase that lasts goes on for one tick more (R187). -/
theorem pwStep_of_lt {c : Config} {k : Clock} {p : Pw} (h : 2 ≤ p.rem) :
    pwStep c k p = some (pwEmit c { p with rem := p.rem - 1 }) := by
  unfold pwStep
  rw [settle_of_rem _ (by show p.rem - 1 ≠ 0; omega)]

end Sys2Proof.Machine
end

