-- ==== Sys2Proof/Laws/Runs.lean ====
section
/-! SUPPORT. Runs of the units and of the block: how they compose, and that a phase counts down one per boundary. -/

namespace Sys2Proof.Machine

/-- A run of MX in two parts, the second under the later Clock States. -/
theorem mxRun_add (c : Config) (clk : Nat → Clock) (a b : Nat) (m : Mx) :
    mxRun c clk (a + b) m = (mxRun c clk a m).bind (mxRun c (fun j => clk (a + j)) b) := by
  induction b with
  | zero => cases mxRun c clk a m <;> simp [mxRun]
  | succ b ih =>
    rw [← Nat.add_assoc, mxRun, ih]
    cases h : mxRun c clk a m <;> simp [mxRun]

/-- A run of PW in two parts. -/
theorem pwRun_add (c : Config) (clk : Nat → Clock) (a b : Nat) (p : Pw) :
    pwRun c clk (a + b) p = (pwRun c clk a p).bind (pwRun c (fun j => clk (a + j)) b) := by
  induction b with
  | zero => cases pwRun c clk a p <;> simp [pwRun]
  | succ b ih =>
    rw [← Nat.add_assoc, pwRun, ih]
    cases h : pwRun c clk a p <;> simp [pwRun]

/-- A run of SR and its receiver in two parts. -/
theorem srRun_add (c : Config) (clk : Nat → Clock) (a b : Nat) (x : Sr × Receiver) :
    srRun c clk (a + b) x = (srRun c clk a x).bind (srRun c (fun j => clk (a + j)) b) := by
  induction b with
  | zero => cases srRun c clk a x <;> simp [srRun]
  | succ b ih =>
    rw [← Nat.add_assoc, srRun, ih]
    cases h : srRun c clk a x <;> simp [srRun]

/-- A run of SR alone in two parts. -/
theorem srAlone_add (c : Config) (clk : Nat → Clock) (a b : Nat) (r : Sr) :
    srAlone c clk (a + b) r = (srAlone c clk a r).bind (srAlone c (fun j => clk (a + j)) b) := by
  induction b with
  | zero => cases srAlone c clk a r <;> simp [srAlone]
  | succ b ih =>
    rw [← Nat.add_assoc, srAlone, ih]
    cases h : srAlone c clk a r <;> simp [srAlone]

/-- A receiver does not disturb SR: what SR does watched is what it does alone (R183). -/
theorem srRun_map_fst (c : Config) (clk : Nat → Clock) (n : Nat) (x : Sr × Receiver) :
    (srRun c clk n x).map Prod.fst = srAlone c clk n x.1 := by
  induction n with
  | zero => rfl
  | succ n ih =>
    rw [srRun, srAlone, ← ih]
    rcases srRun c clk n x with _ | ⟨r, v⟩
    · rfl
    · cases h : srStep c (clk n) r <;> simp [h]

/-- A run of ticks in two parts. -/
theorem runTicks_add (a b : Nat) (s : State) : runTicks (a + b) s = (runTicks a s).bind (runTicks b) := by
  induction b with
  | zero => cases runTicks a s <;> simp [runTicks]
  | succ b ih =>
    rw [← Nat.add_assoc, runTicks, ih]
    cases h : runTicks a s <;> simp [runTicks]

/-- The lines MX drives do not depend on the ticks left. -/
theorem mxEmit_rem (c : Config) (m : Mx) (n : Nat) : mxEmit c { mxEmit c m with rem := n } = mxEmit c { m with rem := n } := rfl

theorem srEmit_rem (r : Sr) (n : Nat) : srEmit { srEmit r with rem := n } = srEmit { r with rem := n } := rfl

theorem pwEmit_rem (c : Config) (p : Pw) (n : Nat) : pwEmit c { pwEmit c p with rem := n } = pwEmit c { p with rem := n } := rfl

/-- A phase of MX counts down one per boundary and keeps everything else (R145). -/
theorem mxRun_countdown (c : Config) (clk : Nat → Clock) (m : Mx) {n : Nat} (h : n < m.rem) :
    mxRun c clk n (mxEmit c m) = some (mxEmit c { m with rem := m.rem - n }) := by
  induction n with
  | zero => rfl
  | succ n ih =>
    rw [mxRun, ih (by omega)]
    show mxStep c (clk n) (mxEmit c { m with rem := m.rem - n }) = _
    rw [mxStep_of_lt (by show 2 ≤ m.rem - n; omega)]
    rfl

/-- A phase of PW counts down one per boundary and keeps everything else (R187). -/
theorem pwRun_countdown (c : Config) (clk : Nat → Clock) (p : Pw) {n : Nat} (h : n < p.rem) :
    pwRun c clk n (pwEmit c p) = some (pwEmit c { p with rem := p.rem - n }) := by
  induction n with
  | zero => rfl
  | succ n ih =>
    rw [pwRun, ih (by omega)]
    show pwStep c (clk n) (pwEmit c { p with rem := p.rem - n }) = _
    rw [pwStep_of_lt (by show 2 ≤ p.rem - n; omega)]
    rfl

/-- Lines that do not change shift and commit nothing (R183). -/
theorem Receiver.watch_still {v : Receiver} (d : Bool) : v.watch v.latch v.clk d = v := by
  obtain ⟨l, k, sh, ws⟩ := v
  cases l <;> cases k <;> simp [Receiver.watch, Receiver.shifted]

/-- A phase of SR counts down one per boundary and keeps everything else (R176). -/
theorem srAlone_countdown (c : Config) (clk : Nat → Clock) (r : Sr) {n : Nat} (h : n < r.rem) :
    srAlone c clk n (srEmit r) = some (srEmit { r with rem := r.rem - n }) := by
  induction n with
  | zero => rfl
  | succ n ih =>
    rw [srAlone, ih (by omega)]
    show srStep c (clk n) (srEmit { r with rem := r.rem - n }) = _
    rw [srStep_of_lt (by show 2 ≤ r.rem - n; omega)]
    rfl

/-- A phase of SR counts down one per boundary and keeps everything else, the receiver that has seen its lines included
(R176, R183). -/
theorem srRun_countdown (c : Config) (clk : Nat → Clock) (r : Sr) {v : Receiver} (hl : v.latch = srLatchLevel r.phase)
    (hk : v.clk = srClkLevel r.phase) {n : Nat} (h : n < r.rem) :
    srRun c clk n (srEmit r, v) = some (srEmit { r with rem := r.rem - n }, v) := by
  induction n with
  | zero => rfl
  | succ n ih =>
    have hw : v.watchSr (srEmit { r with rem := r.rem - (n + 1) }) = v := by
      unfold Receiver.watchSr
      show v.watch (srLatchLevel r.phase) (srClkLevel r.phase) r.data = v
      rw [← hl, ← hk, Receiver.watch_still]
    have hs : srStep c (clk n) (srEmit { r with rem := r.rem - n }) = some (srEmit { r with rem := r.rem - (n + 1) }) := by
      rw [srStep_of_lt (by show 2 ≤ r.rem - n; omega)]
      rfl
    rw [srRun, ih (by omega)]
    simp only [hs, hw]

end Sys2Proof.Machine
end

