-- ==== Sys2Proof/Tests/Slice0.lean ====
section
/-! SUPPORT. The model's own tests. Expected values come from spec/ (95_test_vectors.md and the rules' examples, cited at each
test), under RC0, or by hand from the rules for the small configuration `tinyCfg`. The last part has, for every statement
with hypotheses, a theorem that meets them (test_witness_<statement>). -/

namespace Sys2Proof.Tests

open Sys2Proof Sys2Proof.Machine

/-! ### Helpers -/

/-- The next state, where there is one. -/
def nextOf : Host.Outcome State Fault Refusal → Option State
  | .next t => some t
  | .fault _ => none
  | .refused _ => none

/-- The newest response of the next state. -/
def answerOf (o : Host.Outcome State Fault Refusal) : Option Word :=
  (nextOf o).bind fun t => t.world.responses.head?.map Prod.snd

/-- An outcome that is a next state is the next state that nextOf gives. -/
theorem next_of_isSome {o : Host.Outcome State Fault Refusal} (d : State) (h : (nextOf o).isSome = true) :
    o = .next ((nextOf o).getD d) := by
  cases o with
  | next t => rfl
  | fault r => cases h
  | refused r => cases h

/-- RC0 right after reset. -/
def rc0 : State := State.resetWith .rc0

/-- A configuration with short times: one pass, or two. -/
def tinyCfg (twoPasses : Bool) : Config :=
  { Config.rc0 with
    tSettle := 1, tClkLow := 1, tRise := 2, tGap := 3, tDebounce := 1, tDischarge := 1, tMeasureMax := 2, tHoldMax := 2,
    doubleSample := twoPasses, table0 := [⟨1, .snooze, .lt2x⟩], table1 := [⟨2, .b1, .band⟩], evtDepth := 1,
    resetRefreshRate := 142857 }

/-- tinyCfg right after reset, with the key levels of line 0 by boundary; line 1 stays low. -/
def tiny (twoPasses : Bool) (line0 : List Bool) : State :=
  { State.resetWith (tinyCfg twoPasses) with
    world := ⟨0, [], line0.zipIdx.map fun p => (p.2, ⟨p.1, false⟩), [], []⟩ }

/-- s with BD's own state replaced. -/
def atBd (s : State) (phase : BdPhase) (line : Line) (rem cnt : Nat) (s1 s2 : Option Nat) : State :=
  s.setBd { s.bd with phase := phase, line := line, rem := rem, cnt := cnt, s1 := s1, s2 := s2 }

/-- s at boundary k with both key levels given. -/
def atLevels (s : State) (k : Nat) (l0 l1 : Bool) : State :=
  s.setWorld { s.world with now := k, levels := [(k, ⟨l0, l1⟩)] }

/-! ### Well-formedness: RC0 is accepted, and one ill-formed configuration for each check of R6 is refused -/

theorem test_wf_rc0 : Config.rc0.wf = true := by decide

theorem test_wf_tiny : (tinyCfg true).wf = true ∧ (tinyCfg false).wf = true := by decide

theorem test_wf_icons : { Config.rc0 with iconDisabledPos := 0 }.wfIcons = false ∧
    { Config.rc0 with errPos := #v[0, 1, 2, 1] }.wfIcons = false := by decide

theorem test_wf_wire : { Config.rc0 with tSettle := 0 }.wfWire = false ∧ { Config.rc0 with tClkLow := 0 }.wfWire = false ∧
    { Config.rc0 with tClkLow := 10 }.wfWire = false ∧ { Config.rc0 with tGap := 10 }.wfWire = false := by decide

theorem test_wf_times : { Config.rc0 with tDebounce := 0 }.wfTimes = false ∧
    { Config.rc0 with tDischarge := 0 }.wfTimes = false ∧ { Config.rc0 with tMeasureMax := 0 }.wfTimes = false ∧
    { Config.rc0 with tMeasureMax := 1048576 }.wfTimes = false ∧ { Config.rc0 with tHoldMax := 0 }.wfTimes = false ∧
    { Config.rc0 with tHoldMax := 8388608 }.wfTimes = false := by decide

theorem test_wf_expected : { Config.rc0 with table0 := [⟨0, .left, .band⟩] }.wfExpected .l0 = false ∧
    { Config.rc0 with table1 := [⟨3001, .left, .band⟩] }.wfExpected .l1 = false := by decide

theorem test_wf_band : { Config.rc0 with bandLo0 := 101 }.wfBand .l0 = false ∧
    { Config.rc0 with bandHi1 := 99 }.wfBand .l1 = false := by decide

/-- 120 lies in the band 70..140 of the entry before; 150 does not (95_test_vectors.md 6.1). -/
theorem test_wf_order :
    Config.wfOrder .rc0 .l0 [] [⟨100, .left, .band⟩, ⟨120, .right, .band⟩] = false ∧
    Config.wfOrder .rc0 .l0 [] [⟨100, .left, .band⟩, ⟨150, .right, .band⟩] = true ∧
    Config.wfOrder .rc0 .l0 [] [⟨20, .left, .lt2x⟩, ⟨39, .right, .band⟩] = false := by decide

theorem test_wf_limits : { Config.rc0 with evtDepth := 0 }.wfLimits = false ∧
    { Config.rc0 with evtDepth := 16 }.wfLimits = false ∧ { Config.rc0 with resetRefreshRate := 0 }.wfLimits = false ∧
    { Config.rc0 with resetRefreshRate := 142858 }.wfLimits = false := by decide

theorem test_start_refuses : State.start { Config.rc0 with tSettle := 0 } = .refused .illFormedConfig := by rfl

/-! ### Decoding: one word per command, written out bit by bit from 30_encoding.md R80 and R85 -/

theorem test_decode_reads :
    decode 0b00000000000000000000000000000000 = .cmd .rdHours ∧
    decode 0b00000001000000000000000000000000 = .cmd .rdMinutes ∧
    decode 0b00000010000000000000000000000000 = .cmd .rdHasAlarm ∧
    decode 0b00000011000000000000000000000000 = .cmd .rdAlarmEnabled ∧
    decode 0b00000100000000000000000000000000 = .cmd .rdError ∧
    decode 0b00000101000000000000000000000000 = .cmd .rdRegularDim ∧
    decode 0b00000110000000000000000000000000 = .cmd .rdCeilingDim ∧
    decode 0b00000111000000000000000000000000 = .cmd .rdRefreshRate ∧
    decode 0b00001000000000000000000000000000 = .cmd .rdCeilingUp ∧
    decode 0b00001001000000000000000000000000 = .cmd .rdStatus ∧
    decode 0b00001010000000000000000000000000 = .cmd .rdEvent ∧
    decode 0b00001011000000000000000000000000 = .cmd .rdLastSample ∧
    decode 0b00001100111111111111111111111111 = .cmd .rdPressDuration := by decide

theorem test_decode_writes :
    decode 0b10000000000000000000000000010111 = .cmd (.wrHours 23) ∧
    decode 0b10000001000000000000000000111100 = .cmd (.wrMinutes 60) ∧
    decode 0b10000010000000000000000000000001 = .cmd (.wrHasAlarm 1) ∧
    decode 0b10000011100000000000000000000000 = .cmd (.wrAlarmEnabled 0x800000) ∧
    decode 0b10000100000000000000000011111111 = .cmd (.wrError 255) ∧
    decode 0b10000101000000000000000001100100 = .cmd (.wrRegularDim 100) ∧
    decode 0b10000110000000000000000000000000 = .cmd (.wrCeilingDim 0) ∧
    decode 0b10000111000000100010111000001001 = .cmd (.wrRefreshRate 142857) ∧
    decode 0b10001000000000000000000000000001 = .cmd (.wrCeilingUp 1) ∧
    decode 0b10001001000000000000000000001111 = .cmd (.wrStatus 15) := by decide

/-- 95_test_vectors.md 7.1. -/
theorem test_decode_rejections :
    decode 0x0D000000 = .reject .badAddr ∧ decode 0x8D000000 = .reject .badAddr ∧ decode 0x9D000000 = .reject .rsvBits ∧
    decode 0x10000000 = .reject .rsvBits ∧ decode 0x8A000005 = .reject .roWrite ∧ decode 0x8B000000 = .reject .roWrite ∧
    decode 0x8C000000 = .reject .roWrite ∧ decode 0x0F000000 = .reject .badAddr ∧ decode 0xC0000000 = .reject .rsvBits := by
  decide

theorem test_decodeTableWord : decodeTableWord 32 0x8000000C = some (.wrHours 12) ∧
    decodeTableWord 32 0x0E000000 = none ∧ decodeTableWord 8 0 = some .rdHours := by decide

/-- The command placed at State.reset is the one the first step runs. -/
theorem test_withFetchWord : (State.reset.withFetchWord 32 0x80000017).nextCmd = some (0x80000017, []) ∧
    answerOf (step (rc0.withFetchWord 32 0x80000017)) = some 0x80000000 := by decide

/-! ### Reads at reset (95_test_vectors.md 7.2) -/

theorem test_rdHours : answerOf (exec .rdHours rc0) = some 0x80000058 := by decide
theorem test_rdMinutes : answerOf (exec .rdMinutes rc0) = some 0x80000058 := by decide
theorem test_rdHasAlarm : answerOf (exec .rdHasAlarm rc0) = some 0x80000000 := by decide
theorem test_rdAlarmEnabled : answerOf (exec .rdAlarmEnabled rc0) = some 0x80000000 := by decide
theorem test_rdError : answerOf (exec .rdError rc0) = some 0x80000000 := by decide
theorem test_rdRegularDim : answerOf (exec .rdRegularDim rc0) = some 0x80000032 := by decide
theorem test_rdCeilingDim : answerOf (exec .rdCeilingDim rc0) = some 0x80000032 := by decide
theorem test_rdRefreshRate : answerOf (exec .rdRefreshRate rc0) = some 0x80000064 := by decide
theorem test_rdCeilingUp : answerOf (exec .rdCeilingUp rc0) = some 0x80000000 := by decide
theorem test_rdStatus : answerOf (exec .rdStatus rc0) = some 0x80000000 := by decide
theorem test_rdEvent_empty : answerOf (exec .rdEvent rc0) = some 0x80000000 := by decide
theorem test_rdLastSample : answerOf (exec .rdLastSample rc0) = some 0x80000000 := by decide
theorem test_rdPressDuration : answerOf (exec .rdPressDuration rc0) = some 0x80000000 := by decide

/-- R265's example: the raw value, not the clamped one. -/
theorem test_rdError_raw :
    answerOf (exec .rdError (rc0.setClock { rc0.clock with error := 0xC8 })) = some 0x800000C8 := by decide

/-- 95_test_vectors.md 7.3: two events, 8 events with EVT_OVF, NOMATCH, NOSAMPLE. -/
theorem test_rdStatus_values :
    answerOf (exec .rdStatus (rc0.setFifo [⟨.right, .l0⟩, ⟨.b1, .l1⟩])) = some 0x80000210 ∧
    answerOf (exec .rdStatus ((rc0.setFifo (List.replicate 8 ⟨.snooze, .l0⟩)).setStatus ⟨false, true, false, false, 0⟩)) =
      some 0x80000812 ∧
    answerOf (exec .rdStatus (rc0.setStatus ⟨false, false, true, false, 0⟩)) = some 0x80000004 ∧
    answerOf (exec .rdStatus (rc0.setStatus ⟨false, false, false, true, 0⟩)) = some 0x80000008 ∧
    answerOf (exec .rdStatus (rc0.setStatus ⟨true, false, false, false, 4⟩)) = some 0x80004001 := by decide

/-- 95_test_vectors.md 7.3: the oldest entry first, and it is gone. -/
theorem test_rdEvent_pops :
    answerOf (exec .rdEvent (rc0.setFifo [⟨.right, .l0⟩, ⟨.b1, .l1⟩])) = some 0x80000017 ∧
    (nextOf (exec .rdEvent (rc0.setFifo [⟨.right, .l0⟩, ⟨.b1, .l1⟩]))).map (·.fifo) = some [⟨.b1, .l1⟩] ∧
    answerOf (exec .rdEvent (rc0.setFifo [⟨.b1, .l1⟩])) = some 0x80000031 ∧
    answerOf (exec .rdEvent (rc0.setFifo [⟨.volumeUp, .l1⟩])) = some 0x80000035 := by decide

/-- 95_test_vectors.md 6.3 and P3: the registers as BD packs them. -/
theorem test_rdLastSample_packed :
    answerOf (exec .rdLastSample (rc0.setLastSample (packLastSample true .l0 true 101))) = some 0x80500065 := by decide

theorem test_rdPressDuration_packed :
    answerOf (exec .rdPressDuration (rc0.setPressDuration (packPressDuration false 194798))) = some 0x8002F8EE ∧
    answerOf (exec .rdPressDuration (rc0.setPressDuration (packPressDuration true 3000000))) = some 0x80ADC6C0 := by decide

/-! ### Writes (95_test_vectors.md 7.1) -/

theorem test_wrHours : answerOf (exec (.wrHours 23) rc0) = some 0x80000000 ∧
    (nextOf (exec (.wrHours 23) rc0)).map (·.clock.hours) = some 23 := by decide
theorem test_wrHours_24 : answerOf (exec (.wrHours 24) rc0) = some 0 ∧
    (nextOf (exec (.wrHours 24) rc0)).map (fun t => (t.clock.hours, t.status.badcmd, t.status.cause)) = some (88, true, 4) := by
  decide
theorem test_wrMinutes : (nextOf (exec (.wrMinutes 34) rc0)).map (·.clock.minutes) = some 34 := by decide
theorem test_wrMinutes_60 : (nextOf (exec (.wrMinutes 60) rc0)).map (fun t => (t.clock.minutes, t.status.cause)) =
    some (88, 4) := by decide
theorem test_wrHasAlarm : (nextOf (exec (.wrHasAlarm 1) rc0)).map (·.clock.hasAlarm) = some true := by decide
theorem test_wrHasAlarm_2 : (nextOf (exec (.wrHasAlarm 2) rc0)).map (fun t => (t.clock.hasAlarm, t.status.cause)) =
    some (false, 4) := by decide
theorem test_wrAlarmEnabled : (nextOf (exec (.wrAlarmEnabled 1) rc0)).map (·.clock.alarmEnabled) = some true := by decide
theorem test_wrAlarmEnabled_big : answerOf (exec (.wrAlarmEnabled 0x800001) rc0) = some 0 := by decide
theorem test_wrError : (nextOf (exec (.wrError 255) rc0)).map (·.clock.error) = some 255 := by decide
theorem test_wrError_256 : answerOf (exec (.wrError 256) rc0) = some 0 := by decide
theorem test_wrRegularDim : (nextOf (exec (.wrRegularDim 100) rc0)).map (·.clock.regularDim) = some 100 := by decide
theorem test_wrRegularDim_101 : answerOf (exec (.wrRegularDim 101) rc0) = some 0 := by decide
theorem test_wrCeilingDim : (nextOf (exec (.wrCeilingDim 0) rc0)).map (fun t => (t.clock.ceilingDim, t.clock.regularDim)) =
    some (0, 50) := by decide
theorem test_wrCeilingDim_101 : answerOf (exec (.wrCeilingDim 101) rc0) = some 0 := by decide
theorem test_wrRefreshRate : (nextOf (exec (.wrRefreshRate 142857) rc0)).map (·.clock.refreshRate) = some 142857 := by decide
theorem test_wrRefreshRate_rejected : answerOf (exec (.wrRefreshRate 0) rc0) = some 0 ∧
    answerOf (exec (.wrRefreshRate 142858) rc0) = some 0 := by decide
theorem test_wrCeilingUp : (nextOf (exec (.wrCeilingUp 1) rc0)).map (·.clock.ceilingUp) = some true := by decide
theorem test_wrCeilingUp_2 : answerOf (exec (.wrCeilingUp 2) rc0) = some 0 := by decide

/-- R283: bit 1 clears EVT_OVF alone; clearing BADCMD clears the cause. -/
theorem test_wrStatus :
    (nextOf (exec (.wrStatus 2) (rc0.setStatus ⟨true, true, true, true, 3⟩))).map (·.status) =
      some ⟨true, false, true, true, 3⟩ ∧
    (nextOf (exec (.wrStatus 1) (rc0.setStatus ⟨true, true, true, true, 3⟩))).map (·.status) =
      some ⟨false, true, true, true, 0⟩ := by decide
theorem test_wrStatus_bit4 : (nextOf (exec (.wrStatus 0x11) rc0)).map (·.status) = some ⟨true, false, false, false, 4⟩ := by
  decide

/-! ### Rejections and the order of commands (P2) -/

/-- 0x80000018 then 0x9D000000: the first cause stays. -/
theorem test_first_cause_kept :
    ((nextOf (execWord 0x80000018 rc0)).bind fun t => (nextOf (execWord 0x9D000000 t)).map fun u =>
      (u.status.badcmd, u.status.cause, u.world.responses.map Prod.snd)) = some (true, 4, [0, 0]) := by decide

/-- A command of a later boundary is not run at this one; those of this boundary run in issue order (R67). -/
theorem test_issue_order : takeCmd 0 [(5, 0x00000000), (0, 0x80000001), (0, 0x01000000)] =
    some (0x80000001, [(5, 0x00000000), (0, 0x01000000)]) := by decide

/-- R330: under RESET the pending command is not run and everything is at its reset value. -/
theorem test_reset_boundary :
    (nextOf (step { rc0 with
      clock := { rc0.clock with hours := 5 }, fifo := [⟨.b1, .l1⟩], world := ⟨7, [(7, 0x80000001)], [], [7], []⟩ })).map
      (fun t => (t.clock.hours, t.fifo, t.world.now, t.world.responses)) = some (88, [], 8, []) := by decide

/-! ### The segment encoder (95_test_vectors.md section 2) -/

theorem test_glyph : (List.range 11).map (glyph .rc0) =
    [0x3F, 0x06, 0x5B, 0x4F, 0x66, 0x6D, 0x7D, 0x07, 0x7F, 0x6F, 0x00] := by decide

theorem test_mangle_down : (List.range 11).map (fun d => mangle .rc0 false (glyph .rc0 d)) =
    [0x3F, 0x30, 0x5B, 0x79, 0x74, 0x6D, 0x6F, 0x38, 0x7F, 0x7D, 0x00] := by decide

/-- A table that is no permutation. -/
theorem test_mangle_any_table :
    mangle { Config.rc0 with mangleUp := #v[0, 0, 0, 0, 0, 0, 0, 7] } true 0x01 = 0x7F ∧
    mangle { Config.rc0 with mangleUp := #v[0, 0, 0, 0, 0, 0, 0, 7] } true 0x06 = 0x00 := by decide

theorem test_left_icons :
    [(false, false), (false, true), (true, false), (true, true)].map (fun p => leftIcons .rc0 p.1 p.2) = [2, 0, 3, 1] ∧
    [(false, false), (false, true), (true, false), (true, true)].map (fun p =>
      leftIcons { Config.rc0 with alarmDisabledMode := .presentAndNotEnabled } p.1 p.2) = [0, 0, 3, 1] := by decide

theorem test_right_icons : [0, 1, 2, 3, 5, 8, 10, 15, 16, 17, 31, 255].map (rightIcons .rc0) =
    [0, 1, 2, 3, 5, 8, 0xA, 0xF, 0xF, 0xF, 0xF, 0xF] := by decide

theorem test_matrix_columns :
    (matrixColumns .rc0 { rc0.clock with hours := 12, minutes := 34, hasAlarm := true, alarmEnabled := true, error := 3 }).toList =
      [0x06, 0x01, 0x5B, 0x03, 0x4F, 0x03, 0x66] ∧
    (matrixColumns .rc0 { rc0.clock with hours := 7, minutes := 5, alarmEnabled := true, error := 200 }).toList =
      [0x3F, 0x00, 0x07, 0x03, 0x3F, 0x0F, 0x6D] ∧
    (matrixColumns .rc0 rc0.clock).toList = [0x7F, 0x02, 0x7F, 0x03, 0x7F, 0x00, 0x7F] := by decide

/-- The frame as a number, most significant bit first (00_scope.md R8). -/
def frameValue (bs : List Bool) : Nat := bitsToNat bs.reverse

theorem test_frames :
    frameValue (dataFrame .rc0 { rc0.clock with hours := 12, minutes := 34, ceilingUp := true }) = 0x10106DB4F66 ∧
    frameValue (dataFrame .rc0 { rc0.clock with hours := 12, minutes := 34 }) = 0x10174F95B30 ∧
    frameValue (dataFrame .rc0 { rc0.clock with hours := 23, minutes := 59 }) = 0x1017DED795B ∧
    frameValue (dataFrame .rc0 rc0.clock) = 0x1017FFF7F7F := by decide

/-! ### Timing (95_test_vectors.md section 3) -/

theorem test_pwmTiming : pwmTiming 100 50 = ⟨10000, 5000, 714, 5000⟩ ∧ pwmTiming 3 33 = ⟨333333, 109999, 15714, 223334⟩ ∧
    pwmTiming 60 75 = ⟨16666, 12499, 1785, 4167⟩ ∧ pwmTiming 142857 100 = ⟨7, 7, 1, 0⟩ ∧
    pwmTiming 142857 50 = ⟨7, 3, 0, 4⟩ := by decide

/-! ### One step of each display unit -/

/-- R142's example: the first step takes the snapshot and lights column 0 with the glyph 8. -/
theorem test_mx_first : (mxStep .rc0 rc0.clock rc0.mx).map (fun m => (m.phase, m.rem, m.pause, m.row, m.col)) =
    some (.col 0, 714, 5000, 0x7F, 0x01) := by decide

/-- 95_test_vectors.md section 3: at rate 142857 and dim 50 no column is lit. -/
theorem test_mx_zero_columns :
    (mxStep .rc0 { rc0.clock with refreshRate := 142857 } rc0.mx).map (fun m => (m.phase, m.rem, m.row, m.col)) =
      some (.pause, 4, 0, 0) := by decide

/-- Ten phases are left at one boundary: COL(6), PAUSE, START, COL(0) to COL(6) (log 9). -/
theorem test_mx_ten_phases :
    (mxStep .rc0 { rc0.clock with regularDim := 0 } { rc0.mx with phase := .col 6, rem := 1, colOn := 1428, pause := 0 }).map
      (fun m => (m.phase, m.rem)) = some (.pause, 10000) := by decide

/-- R176's example: the first latch falls for tick 0. -/
theorem test_sr_first : (srStep .rc0 rc0.clock rc0.sr).map (fun r => (r.phase, r.rem, r.idle, r.latchLine, r.clkLine)) =
    some (.latchLow 0, 10, 8525, false, true) := by decide

/-- At boundary 10 the first bit of 0xA01 is driven and the clock falls (95_test_vectors.md 5.1). -/
theorem test_sr_first_bit :
    (srStep .rc0 rc0.clock { rc0.sr with phase := .latchLow 0, rem := 1, seq := transmission .rc0 rc0.clock }).map
      (fun r => (r.phase, r.rem, r.clkLine, r.dataLine)) = some (.clkLow 0 0, 5, false, true) := by decide

/-- With no idle time the next transmission starts where the last gap ends (R175). -/
theorem test_sr_back_to_back :
    (srStep .rc0 { rc0.clock with refreshRate := 1000 } { rc0.sr with phase := .gap 3, rem := 1, idle := 0 }).map
      (fun r => (r.phase, r.idle, r.latchLine)) = some (.latchLow 0, 0, false) := by decide

/-- R187's example, and the ends of the range of CEILING_DIM. -/
theorem test_pw_first : (pwStep .rc0 rc0.clock rc0.pw).map (fun p => (p.phase, p.rem, p.low, p.enLine)) =
      some (.high, 5000, 5000, true) ∧
    (pwStep .rc0 { rc0.clock with ceilingDim := 0 } rc0.pw).map (fun p => (p.phase, p.enLine)) = some (.low, false) ∧
    (pwStep .rc0 { rc0.clock with ceilingDim := 100 } { rc0.pw with phase := .high, rem := 1, low := 0 }).map
      (fun p => (p.phase, p.rem, p.enLine)) = some (.high, 10000, true) := by decide

/-- The reference receiver: a rising clock with the latch low shifts, a rising latch commits (R183). -/
theorem test_receiver : (((Receiver.idle.watch false true false).watch false false true).watch false true true).shift = [true] ∧
    ((((Receiver.idle.watch false true false).watch false false true).watch false true true).watch true true true).words =
      [[true]] := by decide

/-- RESET in CLK_LOW raises both lines with CEIL_DATA 0: the bits shifted so far are committed (R334), the bit under way is not
(log 19). -/
theorem test_receiver_reset : ((Receiver.mk false false [true] []).watch true true false).words = [[true]] := by decide

/-! ### The button decoder, one step at a time -/

/-- R213's example. -/
theorem test_edge : (Edge.mk false false true).sample true = ⟨true, true, true⟩ ∧
    (Edge.mk false true true).sample true = ⟨false, true, true⟩ ∧
    (Edge.mk false false false).sample true = ⟨false, true, false⟩ := by decide

/-- An edge on both lines is served line 0 first, at the same boundary (T9 of 95_test_vectors.md 6.4). -/
theorem test_both_edges :
    (nextOf (tick (atLevels (rc0.setEdges ⟨false, false, true⟩ ⟨false, false, true⟩) 1000 true true))).map
      (fun t => (t.bd.phase, t.bd.line, t.bd.rem)) = some (.debounce, .l0, 2000) ∧
    (nextOf (tick (atLevels (rc0.setEdges ⟨false, false, true⟩ ⟨false, false, true⟩) 1000 true true))).map
      (fun t => (t.edge0.pending, t.edge1.pending, t.bd.key0, t.bd.key1)) =
      some (false, true, .inPulldown, .inPulldownIrq) := by decide

/-- T1 and T2: at the debounce expiry only the level counts. -/
theorem test_debounce_expiry :
    (nextOf (tick (atLevels (atBd rc0 .debounce .l0 1 0 none none) 3000 true false))).map (fun t => (t.bd.phase, t.bd.rem, t.bd.key0)) =
      some (.dis1, 1000, .outLow) ∧
    (nextOf (tick (atLevels (atBd rc0 .debounce .l0 1 0 none none) 3000 false false))).map (fun t => (t.bd.phase, t.bd.key0)) =
      some (.idle, .inPulldownIrq) := by decide

/-- T1: the second pass of 102 pushes Left with the combined sample 101. -/
theorem test_classify_left :
    (nextOf (tick (atLevels (atBd rc0 .meas2 .l0 0 101 (some 100) none) 5202 true false))).map
      (fun t => (t.bd.phase, t.bd.cnt, t.fifo, t.lastSample, t.evtIrq)) =
      some (.hold, 0, [⟨.left, .l0⟩], 0x500065, true) := by decide

/-- T4: 150 matches no entry. -/
theorem test_classify_none :
    (nextOf (tick (atLevels (atBd rc0 .meas2 .l0 0 149 (some 150) none) 5300 true false))).map
      (fun t => (t.fifo, t.lastSample, t.status)) = some ([], 0x100096, ⟨false, false, true, false, 0⟩) := by decide

/-- T5: both passes capped. -/
theorem test_classify_absent :
    (nextOf (tick (atLevels (atBd rc0 .meas2 .l1 0 2999 none none) 11000 false false))).map
      (fun t => (t.bd.phase, t.lastSample, t.status)) = some (.hold, 0x200000, ⟨false, false, false, true, 0⟩) := by decide

/-- T11: the ninth event finds the FIFO full. -/
theorem test_overflow :
    ((rc0.setFifo (List.replicate 8 ⟨.snooze, .l0⟩)).pushEvent .b1 .l1).fifo = List.replicate 8 ⟨.snooze, .l0⟩ ∧
    ((rc0.setFifo (List.replicate 8 ⟨.snooze, .l0⟩)).pushEvent .b1 .l1).status.evtOvf = true := by decide

/-- T7: the hold cap. -/
theorem test_hold_timeout :
    (nextOf (tick (atLevels (atBd rc0 .hold .l1 0 2999999 none none) 3006800 false true))).map
      (fun t => (t.bd.phase, t.bd.rem, t.pressDuration)) = some (.disf, 1000, 0xADC6C0) := by decide

/-- 95_test_vectors.md 6.1, the ends of the ranges. -/
theorem test_lookup :
    [1, 39, 40, 69, 70, 140, 141, 174, 175, 350, 351, 420, 840, 841, 1050, 2100, 2101].map
      (fun v => lookupButton .rc0 .l0 v Config.rc0.table0) =
      [some .snooze, some .snooze, none, none, some .left, some .left, none, none, some .right, some .right, none,
        some .time, some .time, none, some .power, some .power, none] ∧
    [39, 40, 79, 80, 120, 121, 240, 360, 361, 720, 1080, 1081].map (fun v => lookupButton .rc0 .l1 v Config.rc0.table1) =
      [some .b1, none, none, some .b2, some .b2, none, some .volumeDown, some .volumeDown, none, some .volumeUp,
        some .volumeUp, none] := by decide

/-- 95_test_vectors.md 6.2. -/
theorem test_combine : combineSamples .rc0 (some 100) (some 103) = some 101 ∧ combineSamples .rc0 (some 1) (some 2) = some 1 ∧
    combineSamples .rc0 none (some 57) = some 57 ∧ combineSamples .rc0 none none = none ∧
    combineSamples { Config.rc0 with doubleSample := false } (some 100) (some 7) = some 100 := by decide

/-! ### The assembler (30_encoding.md R87 to R89) -/

theorem test_assemble : assemble "@0  WR HOURS, 12 ; noon\n    SETDIM 100, 0x32\n@20000 RD EVENT\n.word 0x9D000000" =
    some [(0, 0x8000000C), (0, 0x85000064), (0, 0x86000032), (20000, 0x0A000000), (20000, 0x9D000000)] ∧
    assemble "@0x10\tRD HOURS\r\n" = some [(16, 0x00000000)] := by decide

theorem test_assemble_refuses : assemble "WR HOURS, 16777216" = none ∧ assemble "RD NOTHING" = none := by decide

theorem test_disassemble : String.ofList (renderOp (disassemble 0x00ABCDEF)) = "RD HOURS" ∧
    String.ofList (renderOp (disassemble 0x87022E09)) = "WR REFRESH_RATE, 0x022E09" ∧
    String.ofList (renderOp (disassemble 0x9D000000)) = ".word 0x9D000000" := by decide
/-! ### Witnesses: for every statement with hypotheses, values that meet them, one for each clause -/

/-- Any command under way at boundary 0 of RC0. -/
def withCmd (w : Word) : State := { rc0 with world := ⟨0, [(0, w)], [], [], []⟩ }

theorem test_witness_DecodeFollowsTheOpcodeMap :
    (∃ row ∈ opcodeMap, 0x00FFFFFF &&& 0xFF000000#32 = row.1) ∧ (∃ row ∈ opcodeMap, 0x8900000F &&& 0xFF000000#32 = row.1) ∧
    (∀ row ∈ opcodeMap, 0x0D000000 &&& 0xFF000000#32 ≠ row.1) := by
  refine ⟨⟨(0x00000000, fun _ => .rdHours), by simp [opcodeMap], by decide⟩,
    ⟨(0x89000000, .wrStatus), by simp [opcodeMap], by decide⟩, ?_⟩
  intro row h
  have hr : row.1 ∈ opcodeMap.map Prod.fst := List.mem_map_of_mem h
  have hd : (opcodeMap.map Prod.fst).all (fun m => 0x0D000000 &&& 0xFF000000#32 != m) = true := by rfl
  exact bne_iff_ne.1 (List.all_eq_true.1 hd _ hr)

theorem test_witness_RejectionCausePriority :
    (0x9D000000#32).extractLsb' 28 3 ≠ 0 ∧
    ((0x0D000000#32).extractLsb' 28 3 = 0 ∧ 13 ≤ ((0x0D000000#32).extractLsb' 24 4).toNat) ∧
    ((0x8A000005#32).extractLsb' 28 3 = 0 ∧ (0x8A000005#32).getLsbD 31 = true ∧
      10 ≤ ((0x8A000005#32).extractLsb' 24 4).toNat ∧ ((0x8A000005#32).extractLsb' 24 4).toNat ≤ 12) ∧
    ((0x8C000000#32).getLsbD 31 = true ∧ ((0x8C000000#32).extractLsb' 24 4).toNat = 12) ∧
    (decode 0x80000018 = .cmd (.wrHours 24) ∧ dataLegal (.wrHours 24) = false) := by decide

/-- Two rejections at one boundary. -/
theorem test_witness_RejectionCausePriority_two :
    State.resetAsserted { rc0 with world := ⟨0, [(0, 0x80000018), (0, 0x9D000000)], [], [], []⟩ } = false ∧
    rejectCode 0x80000018 = some 4 ∧ rejectCode 0x9D000000 = some 1 := by decide

theorem test_witness_DecodeThenEncodeRecoversTheWord : decode 0x00ABCDEF = .cmd .rdHours ∧
    decode 0x80ABCDEF = .cmd (.wrHours 0xABCDEF) := by decide

theorem test_witness_DisassemblyInvertsAssembly : decode 0x8000000C = .cmd (.wrHours 12) ∧
    decode 0x0CFFFFFF = .cmd .rdPressDuration ∧ decode 0x0D000000 = .reject .badAddr := by decide

theorem test_witness_StepRunsTheDecodedCommand : (withCmd 0x80000017).resetAsserted = false ∧
    (withCmd 0x80000017).nextCmd = some (0x80000017, []) ∧ decode 0x80000017 = .cmd (.wrHours 23) := by decide

theorem test_witness_CommandsRunInIssueOrder :
    (∃ (s : State) (a b : List (Nat × Word)) (w : Word), s.world.cmds = a ++ (s.world.now, w) :: b ∧ a ≠ [] ∧ b ≠ [] ∧
      ∀ p ∈ a, p.1 ≠ s.world.now) ∧
    (∀ p ∈ rc0.world.cmds, p.1 ≠ rc0.world.now) ∧ rc0.resetAsserted = false :=
  ⟨⟨{ rc0 with world := ⟨3, [(5, 0), (3, 1), (3, 2)], [], [], []⟩ }, [(5, 0)], [(3, 2)], 1, by decide⟩, by decide, by decide⟩

theorem test_witness_RejectionChangesOnlyStatus :
    ((withCmd 0x8A000005).resetAsserted = false ∧ (withCmd 0x8A000005).nextCmd = some (0x8A000005, []) ∧
      rejectCode 0x8A000005 = some 3) ∧
    ((withCmd 0x89000010).nextCmd = some (0x89000010, []) ∧ rejectCode 0x89000010 = some 4) := by decide

theorem test_witness_ResetForcesEveryResetValue :
    State.resetAsserted { rc0 with world := ⟨7, [(7, 0x80000001)], [], [7], []⟩ } = true := by decide

theorem test_witness_ResetValues : ({ Config.rc0 with hasGndRef := true }).hasGndRef = true ∧ Config.rc0.hasGndRef = false := by
  decide

theorem test_witness_OnlyWellFormedConfigsStart : Config.rc0.wf = true ∧ { Config.rc0 with tSettle := 0 }.wf = false ∧
    (nextOf (step (withCmd 0x80000017))).isSome = true := by decide

/-- A word of each row, and a state that meets the invariant. -/
theorem test_witness_reads :
    [0x00FFFFFF#32, 0x01000000, 0x02000000, 0x03000000, 0x04000000, 0x05000000, 0x06000000, 0x07000000, 0x08000000, 0x09000000,
      0x0A000000, 0x0B000000, 0x0CABCDEF].map (· &&& 0xFF000000#32) =
      [0x00000000, 0x01000000, 0x02000000, 0x03000000, 0x04000000, 0x05000000, 0x06000000, 0x07000000, 0x08000000, 0x09000000,
        0x0A000000, 0x0B000000, 0x0C000000] := by decide

theorem test_witness_ClockReadsAnswerTheRegister : rc0.Inv := by decide

theorem test_witness_StatusReadAnswersEveryField : (rc0.setFifo (List.replicate 15 ⟨.power, .l1⟩)).fifo.length ≤ 15 := by decide

theorem test_witness_EventReadPopsTheOldest : rc0.fifo = [] ∧
    (rc0.setFifo [⟨.right, .l0⟩, ⟨.b1, .l1⟩]).fifo = ⟨.right, .l0⟩ :: [⟨.b1, .l1⟩] := by decide

/-- A word of each row of the writes. -/
theorem test_witness_writes :
    [0x80000017#32, 0x8100003C, 0x82000002, 0x83000001, 0x84000100, 0x85000065, 0x86000064, 0x87022E0A, 0x88000001,
      0x89000010].map (· &&& 0xFF000000#32) =
      [0x80000000, 0x81000000, 0x82000000, 0x83000000, 0x84000000, 0x85000000, 0x86000000, 0x87000000, 0x88000000,
        0x89000000] := by decide

theorem test_witness_TimeWritesStoreOrReject : (23 : Data).toNat ≤ 23 ∧ 23 < (24 : Data).toNat ∧ (59 : Data).toNat ≤ 59 ∧
    59 < (60 : Data).toNat := by decide

theorem test_witness_FlagWritesStoreOrReject : (1 : Data).toNat ≤ 1 ∧ (0 : Data).toNat ≤ 1 ∧ 1 < (2 : Data).toNat := by decide

theorem test_witness_ErrorWriteStoresRaw : (255 : Data).toNat ≤ 255 ∧ 255 < (256 : Data).toNat ∧ 15 ≤ (15 : BitVec 8).toNat ∧
    15 ≤ (255 : BitVec 8).toNat := by decide

theorem test_witness_DimWritesStoreOrReject : (100 : Data).toNat ≤ 100 ∧ 100 < (101 : Data).toNat := by decide

theorem test_witness_RateWriteStoresOrRejects : (1 ≤ (1 : Data).toNat ∧ (1 : Data).toNat ≤ 142857) ∧
    (1 ≤ (142857 : Data).toNat ∧ (142857 : Data).toNat ≤ 142857) ∧ (0 : Data).toNat = 0 ∧ 142857 < (142858 : Data).toNat := by
  decide

theorem test_witness_StatusWriteClearsOnOnes : (15 : Data).toNat < 16 ∧ 16 ≤ (16 : Data).toNat := by decide

theorem test_witness_CommandFrame : writeTarget .rdHours = none ∧ Instr.rdHours ≠ .rdEvent ∧
    (writeTarget (.wrHours 23) ≠ none ∧ dataLegal (.wrHours 23) = true ∧ writeTarget (.wrHours 23) ≠ some .status ∧
      writeTarget (.wrHours 23) ≠ some .minutes) ∧
    dataLegal (.wrHours 24) = false := by decide

theorem test_witness_WrittenValueStaysUntilTheNextWrite :
    (writeTarget (.wrMinutes 59) = some .minutes ∧ Reg.inClock .minutes = true ∧ dataLegal (.wrMinutes 59) = true ∧
      (nextOf (exec (.wrMinutes 59) rc0)).isSome = true) ∧
    ((withCmd 0x80000017).resetAsserted = false ∧
      (nextOf (step (withCmd 0x80000017))).map (fun t => decide (t.regValue .hours ≠ (withCmd 0x80000017).regValue .hours)) =
        some true) ∧ Reg.inClock .hours = true := by decide

theorem test_witness_FifoOnlyAppendsAndPops : (nextOf (step (withCmd 0x0A000000))).isSome = true ∧
    (withCmd 0x0A000000).fifo.length ≤ (withCmd 0x0A000000).cfg.evtDepth := by decide

theorem test_witness_DigitsAndGlyphs : (99 : Nat) ≤ 99 ∧ (88 : Nat) ≤ 99 ∧ (10 : Nat) ≤ 10 := by decide

theorem test_witness_LeftIconBits : (Config.rc0.iconPresentPos.val < 7) ∧ (Config.rc0.iconDisabledPos.val < 7) ∧
    ({ Config.rc0 with alarmDisabledMode := .presentAndNotEnabled } : Config).alarmDisabledMode = .presentAndNotEnabled := by
  decide

theorem test_witness_RightIconsShowTheClampedError : (0 : Nat) < 7 ∧ (6 : Nat) < 7 := by decide

theorem test_witness_MangleRelocatesSegments :
    (if true then Config.rc0.mangleUp else Config.rc0.mangleDown).toList.Nodup ∧
    (if false then Config.rc0.mangleUp else Config.rc0.mangleDown).toList.Nodup := by decide

theorem test_witness_DataFrameLayout : (8 < 9 ∧ 8 ≠ Config.rc0.dotsOffset.val) ∧
    9 + 8 * (3 : Fin 4).val + (7 - (0 : Fin 8).val) ≠ Config.rc0.dotsOffset.val ∧
    9 + 8 * (0 : Fin 4).val + (7 - (7 : Fin 8).val) ≠ Config.rc0.dotsOffset.val := by decide

theorem test_witness_PwmTimingSplitsThePeriod : (1 ≤ 142857 ∧ 142857 ≤ 142857 ∧ 100 ≤ 100) ∧ (1 ≤ 1 ∧ 1 ≤ 142857 ∧ 0 ≤ 100) := by
  decide

/-- The Clock State of RC0 at rate 142857 and a dim; a cycle of seven ticks. -/
def fastClock (dim : BitVec 7) : Clock := { rc0.clock with refreshRate := 142857, regularDim := dim, ceilingDim := dim }

/-- A column slot, and the pause. -/
theorem test_witness_MatrixLinesFollowThePhase :
    (mxStep .rc0 rc0.clock rc0.mx).map (·.phase) = some (.col 0) ∧ rc0.mx.Inv .rc0 ∧
    (mxStep .rc0 (fastClock 50) rc0.mx).map (·.phase) = some .pause := by decide

/-- At dim 100 a slot of one tick each, columns 0 and 6; at dim 50 no slot and a pause of four; each place START is left from. -/
theorem test_witness_MatrixCycleTimeline : (fastClock 100).InRange ∧ (fastClock 50).InRange ∧ mxLeavesStart rc0.mx = true ∧
    mxLeavesStart { rc0.mx with phase := .pause, rem := 1, pause := 4 } = true ∧
    mxLeavesStart { rc0.mx with phase := .col 6, rem := 1, colOn := 1 } = true ∧
    (pwmTiming (fastClock 100).refreshRate.toNat (fastClock 100).regularDim.toNat).colOn = 1 ∧
    ((0 : Fin 7).val * 1 ≤ 0 ∧ 0 < ((0 : Fin 7).val + 1) * 1) ∧ ((6 : Fin 7).val * 1 ≤ 6 ∧ 6 < ((6 : Fin 7).val + 1) * 1) ∧
    (pwmTiming (fastClock 50).refreshRate.toNat (fastClock 50).regularDim.toNat).colOn = 0 ∧
    (7 * 0 ≤ 3 ∧ 3 < 7 * 0 + (pwmTiming (fastClock 50).refreshRate.toNat (fastClock 50).regularDim.toNat).pause) := by decide

/-- The last slot of a cycle at dim 100, its lines driven; the register now holds dim 0. -/
def lastSlot : Mx := mxEmit .rc0 { rc0.mx with phase := .col 6, rem := 1, colOn := 1428, pause := 0 }

theorem test_witness_MatrixLeavesAtMostNinePhases : ({ rc0.clock with regularDim := 0 } : Clock).InRange ∧
    lastSlot.Inv .rc0 := by decide

theorem test_witness_MatrixLeavesAtMostTenPhases : ({ rc0.clock with regularDim := 0 } : Clock).InRange ∧
    lastSlot.Inv .rc0 ∧ rc0.clock.InRange ∧ rc0.mx.Inv .rc0 := by decide

/-- SR of RC0 in a phase, with the sequences of the reset frame. -/
def srAt (p : SrPhase) (rem : Nat) (idle : Nat) : Sr :=
  { rc0.sr with phase := p, rem := rem, idle := idle, seq := transmission .rc0 rc0.clock }

/-- The first and the last sequence, with idle time and with none; each place START is left from; a period longer than the
transmission, and one shorter. -/
theorem test_witness_TransmissionLength : Config.rc0.wf = true ∧
    (∀ r ∈ [srAt (.latchLow 0) 10 0, srAt (.latchLow 3) 10 5, srAt (.latchLow 3) 10 0], r.rem = Config.rc0.tSettle ∧
      1 ≤ r.seq[0].length ∧ 1 ≤ r.seq[3].length) ∧
    (srLeavesStart rc0.sr = true ∧ srLeavesStart (srAt .idle 1 5) = true ∧ srLeavesStart (srAt (.gap 3) 1 0) = true) ∧
    694 < tSeq .rc0 41 ∧ 1474 < tFrame .rc0 ∧ tFrame .rc0 < 1000000 / rc0.clock.refreshRate.toNat ∧
    1000000 / (fastClock 50).refreshRate.toNat ≤ tFrame .rc0 := by decide

theorem test_witness_SerialLinesFollowThePhase : rc0.sr.Inv .rc0 ∧
    (srStep .rc0 rc0.clock rc0.sr).map (·.phase) = some (.latchLow 0) ∧
    (srStep .rc0 rc0.clock (srAt (.latchLow 0) 1 0)).map (·.phase) = some (.clkLow 0 0) ∧
    (srStep .rc0 rc0.clock (srAt (.clkLow 3 40) 1 0)).map (·.phase) = some (.clkHigh 3 40) ∧
    (srStep .rc0 rc0.clock (srAt (.clkHigh 3 40) 1 0)).map (·.phase) = some (.gap 3) ∧
    (srStep .rc0 rc0.clock (srAt (.gap 3) 1 5)).map (·.phase) = some .idle := by decide

theorem test_witness_ReceiverGetsTheTransmission : Config.rc0.wf = true ∧ srLeavesStart rc0.sr = true ∧
    srLeavesStart (srAt .idle 1 5) = true ∧ srLeavesStart (srAt (.gap 3) 1 0) = true := by decide

theorem test_witness_TransmissionsRepeat : Config.rc0.wf = true ∧ srLeavesStart rc0.sr = true ∧
    (0 < 9999 ∧ 9999 < max (1000000 / rc0.clock.refreshRate.toNat) (tFrame .rc0)) ∧
    max (1000000 / (fastClock 50).refreshRate.toNat) (tFrame .rc0) = 1475 := by decide

theorem test_witness_EnableLinePeriod : (fastClock 50).InRange ∧ pwLeavesStart rc0.pw = true ∧
    pwLeavesStart { rc0.pw with phase := .low, rem := 1, low := 4 } = true ∧
    pwLeavesStart { rc0.pw with phase := .high, rem := 1, low := 0 } = true ∧
    6 < 1000000 / (fastClock 50).refreshRate.toNat := by decide

/-- Both lines armed and low, then high. -/
def edgesNow (l0 l1 : Bool) : State := atLevels (rc0.setEdges ⟨false, false, true⟩ ⟨false, false, true⟩) 1000 l0 l1

theorem test_witness_IdleServesLineZeroFirst :
    (∀ p ∈ [(true, true), (false, true), (false, false)],
      (nextOf (tick (edgesNow p.1 p.2))).isSome = true ∧ (edgesNow p.1 p.2).bd.phase = .idle) ∧
    ((edgeDetect (edgesNow true true)).edge .l0).pending = true ∧
    ((edgeDetect (edgesNow false true)).edge .l0).pending = false ∧ ((edgeDetect (edgesNow false true)).edge .l1).pending = true ∧
    ((edgeDetect (edgesNow false false)).edge .l0).pending = false ∧
    ((edgeDetect (edgesNow false false)).edge .l1).pending = false := by decide

/-- s with the pending bits of both lines given. -/
def withPending (s : State) (p0 p1 : Bool) : State :=
  s.setEdges { s.edge0 with pending := p0 } { s.edge1 with pending := p1 }

/-- The end of DEBOUNCE at a low level and of DISF, with each of the pending bits a return to IDLE can find: line 0, line 1 alone,
none; what follows is R214's. -/
theorem test_witness_idleChecked : ∀ ph ∈ [BdPhase.debounce, .disf],
    ∀ q ∈ [(true, true, BdPhase.debounce, Line.l0), (false, true, .debounce, .l1), (false, false, .idle, .l1)],
      ((edgeDetect (withPending (atLevels (atBd rc0 ph .l1 1 0 none none) 9 false false) q.1 q.2.1)).edge .l0).pending = q.1 ∧
      ((edgeDetect (withPending (atLevels (atBd rc0 ph .l1 1 0 none none) 9 false false) q.1 q.2.1)).edge .l1).pending = q.2.1 ∧
      (nextOf (tick (withPending (atLevels (atBd rc0 ph .l1 1 0 none none) 9 false false) q.1 q.2.1))).map
        (fun t => (t.bd.phase, t.bd.line)) = some q.2.2 := by decide

theorem test_witness_DebounceLooksOnce :
    ((nextOf (tick (atLevels (atBd rc0 .debounce .l0 2 0 none none) 3000 true false))).isSome = true) ∧
    ((nextOf (tick (atLevels (atBd rc0 .debounce .l0 1 0 none none) 3000 true false))).isSome = true ∧
      (atLevels (atBd rc0 .debounce .l0 1 0 none none) 3000 true false).level .l0 = true) ∧
    ((nextOf (tick (atLevels (atBd rc0 .debounce .l0 1 0 none none) 3000 false false))).isSome = true ∧
      (atLevels (atBd rc0 .debounce .l0 1 0 none none) 3000 false false).level .l0 = false) := by decide

/-- A discharge before its end and at it, with one pass and with two. -/
theorem test_witness_MeasurePollRule_discharge :
    ∀ two ∈ [true, false], ∀ q ∈ [(BdPhase.dis1, BdPhase.meas1), (.dis2, .meas2)],
      (nextOf (tick (atLevels (atBd (tiny two []) q.1 .l0 2 7 none none) 9 true false))).map (fun t => (t.bd.phase, t.bd.rem)) =
        some (q.1, 1) ∧
      (nextOf (tick (atLevels (atBd (tiny two []) q.1 .l0 1 7 none none) 9 true false))).map (fun t => (t.bd.phase, t.bd.cnt)) =
        some (q.2, 0) := by decide

/-- Each way a poll can go, at the cap and below it, with one pass and with two. -/
theorem test_witness_MeasurePollRule :
    (∀ two ∈ [true, false], ∀ ph ∈ [BdPhase.meas1, .meas2], ∀ q ∈ [(1, true), (1, false), (0, true), (0, false)],
      (nextOf (tick (atLevels (atBd (tiny two []) ph .l0 0 q.1 none none) 9 q.2 false))).isSome = true ∧
      (atLevels (atBd (tiny two []) ph .l0 0 q.1 none none) 9 q.2 false).level .l0 = q.2) ∧
    (tinyCfg true).tMeasureMax = 1 + 1 ∧ 0 + 1 ≠ (tinyCfg true).tMeasureMax ∧ (tinyCfg true).doubleSample = true ∧
    (tinyCfg false).doubleSample = false := by decide

theorem test_witness_CombineRule : Config.rc0.doubleSample = true ∧ (3000 ≤ Config.rc0.tMeasureMax) ∧
    (tinyCfg false).doubleSample = false := by decide

theorem test_witness_FirstMatchingEntryWins : (Entry.mk 20 .snooze .lt2x).kind = .lt2x ∧ (Entry.mk 100 .left .band).kind = .band ∧
    lookupButton .rc0 .l0 100 Config.rc0.table0 = some .left ∧ lookupButton .rc0 .l0 40 Config.rc0.table0 = none := by decide

theorem test_witness_ExpectedValueClassifiesToItsButton : Config.rc0.wf = true ∧
    (⟨100, .left, .band⟩ ∈ Config.rc0.table .l0 ∧ 100 * 70 = Config.rc0.bandLo .l0 * 100 ∧
      100 * 140 = Config.rc0.bandHi .l0 * 100) ∧
    ⟨20, .snooze, .lt2x⟩ ∈ Config.rc0.table .l0 ∧ ⟨900, .volumeUp, .band⟩ ∈ Config.rc0.table .l1 := by decide

/-- The end of the last pass: absent, unmatched, matched with room, matched with the FIFO full; of one pass and of two. -/
theorem test_witness_ClassificationOutcome :
    (∀ q ∈ [(2999, false, none), (149, true, some 150), (101, true, some 100)],
      (nextOf (tick (atLevels (atBd rc0 .meas2 .l0 0 q.1 q.2.2 none) 9 q.2.1 false))).isSome = true ∧
      inLastPass (atBd rc0 .meas2 .l0 0 q.1 q.2.2 none) = true ∧
      (pollSample .rc0 (q.1 + 1) q.2.1).isSome = true) ∧
    combineSamples .rc0 none none = none ∧
    lookupButton .rc0 .l0 150 (Config.rc0.table .l0) = none ∧ lookupButton .rc0 .l0 101 (Config.rc0.table .l0) = some .left ∧
    rc0.fifo.length < rc0.cfg.evtDepth ∧
    rc0.cfg.evtDepth ≤ (rc0.setFifo (List.replicate 8 ⟨.snooze, .l0⟩)).fifo.length ∧
    inLastPass (atBd (tiny false []) .meas1 .l1 0 0 none none) = true := by decide

/-- The polls that end a last pass, of two passes and of one; each way a tick of HOLD can go; DISF before its end and at it. -/
theorem test_witness_HoldAndFinalDischarge :
    (∀ s ∈ [atBd (tiny true []) .meas2 .l0 0 1 none none, atBd (tiny false []) .meas1 .l0 0 1 none none],
      inLastPass s = true ∧ s.bd.phase ≠ .hold ∧ ∀ lvl ∈ [true, false],
        (pollSample s.cfg (s.bd.cnt + 1) ((atLevels s 9 lvl false).level .l0)).isSome = true ∧
        (nextOf (tick (atLevels s 9 lvl false))).map (·.bd.phase) = some .hold) ∧
    (∀ q ∈ [(1, false), (1, true), (0, true)],
      (nextOf (tick (atLevels (atBd (tiny true []) .hold .l0 0 q.1 none none) 9 q.2 false))).isSome = true ∧
      (atLevels (atBd (tiny true []) .hold .l0 0 q.1 none none) 9 q.2 false).level .l0 = q.2) ∧
    1 + 1 < 2 ^ 23 ∧ 1 + 1 = (tinyCfg true).tHoldMax ∧ 0 + 1 ≠ (tinyCfg true).tHoldMax ∧
    (∀ r ∈ [1, 2], (nextOf (tick (atLevels (atBd rc0 .disf .l0 r 0 none none) 9 false false))).isSome = true) := by decide

theorem test_witness_PinModesFollowThePhase :
    ∀ p ∈ [BdPhase.idle, .debounce, .dis1, .meas1, .dis2, .meas2, .hold, .disf],
      (nextOf (tick (atLevels (atBd rc0 p .l0 5 0 none none) 9 true true))).isSome = true := by decide

/-- One tick after reset under tinyCfg with two passes, line 0 low at boundary 0 and then, from offset 0 of boundary 1 on, as
listed. -/
def afterOneTick (line0 : List Bool) : State := (nextOf (tick (tiny true (false :: line0)))).getD rc0

/-- Line 0 rises at boundary 1, charges at count 2 of the first pass (offset 4), never in the second (offsets 6 and 7), reads
high at offset 8 and is released at offset 9. -/
def pressStart : State := afterOneTick [true, true, false, false, true, false, false, false, true, false, false]

/-- A press with no sample, released at offset 8; and one with two samples of 1, which match Snooze, released at offset 6. -/
theorem test_witness_PressTimeline_outcomes :
    (∀ p ∈ [2, 5], (afterOneTick [true, true, false, false, false, false, false, false, false]).levelAt (1 + (p + 1)) .l0 = false ∧
      (afterOneTick [true, true, false, false, false, false, false, false, false]).levelAt (1 + (p + 2)) .l0 = false) ∧
    combineSamples (tinyCfg true) none none = none ∧
    (∀ p ∈ [2, 4], (afterOneTick [true, true, false, true, false, true, false]).levelAt (1 + (p + 1)) .l0 = true) ∧
    combineSamples (tinyCfg true) (some 1) (some 1) = some 1 ∧
    lookupButton (tinyCfg true) .l0 1 ((tinyCfg true).table .l0) = some .snooze ∧
    ((runTicks 7 (afterOneTick [true, true, false, true, false, true, false])).map (·.fifo)) = some [⟨.snooze, .l0⟩] := by decide

theorem test_witness_PressTimeline : pressStart.cfg.wf = true ∧ pressStart.cfg.doubleSample = true ∧
    pressStart.servesNext .l0 = true ∧ pressStart.cfg.tDebounce = 1 ∧ pressStart.cfg.tDischarge = 1 ∧
    pressStart.levelAt (pressStart.world.now + 1) .l0 = true ∧
    pressStart.passGives .l0 (pressStart.world.now + 2) 2 (some 2) ∧ pressStart.passGives .l0 (pressStart.world.now + 5) 2 none ∧
    (1 ≤ 2 ∧ 2 ≤ pressStart.cfg.tHoldMax) ∧
    (∀ j, 7 < j → j < 9 → pressStart.levelAt (pressStart.world.now + j) .l0 = true) ∧
    pressStart.levelAt (pressStart.world.now + 9) .l0 = false := by
  refine ⟨by decide, by decide, by decide, by decide, by decide, by decide, ⟨by decide, by decide, ?_, by decide⟩,
    ⟨by decide, by decide, ?_, by decide⟩, by decide, ?_, by decide⟩
  · intro j h1 h2
    obtain rfl : j = 1 := by omega
    decide
  · intro j h1 h2
    obtain rfl : j = 1 := by omega
    decide
  · intro j h1 h2
    obtain rfl : j = 8 := by omega
    decide

/-- The run of the witness above reaches every phase of the timeline: offsets 0, 1, 2, 4, 5, 7, 9 and 10. -/
theorem test_witness_PressTimeline_run :
    [0, 1, 2, 4, 5, 7, 9, 10].map (fun n => (runTicks (n + 1) pressStart).map (·.bd.phase)) =
      [some .debounce, some .dis1, some .meas1, some .dis2, some .meas2, some .hold, some .disf, some .idle] := by decide

/-- A press's last poll with one pass, line 1 waiting with a pending edge: the next classification is T_MIN_PUSH on. -/
def pushNow : State :=
  let s := atBd (tiny false []) .meas1 .l0 0 0 none none
  { s with
    edge1 := ⟨true, true, true⟩
    world := ⟨9, [], [(9, ⟨true, true⟩), (10, ⟨false, true⟩), (11, ⟨false, true⟩), (12, ⟨false, true⟩), (13, ⟨false, true⟩),
      (14, ⟨false, true⟩)], [], []⟩ }

theorem test_witness_PushesAreMinPushApart : pushNow.cfg.wf = true ∧ pushNow.world.resets = [] ∧ classifiesNext pushNow = true ∧
    (nextOf (Host.Core.run Sys2Proof.core 5 pushNow)).map (fun t => (classifiesNext t, t.world.now)) = some (true, 14) ∧
    tMinPush (tinyCfg false) = 5 := by decide

theorem test_witness_UnitOrderDoesNotMatter :
    [unitBd, unitPw, unitSr, unitMx] ∈ [unitMx, unitSr, unitPw, unitBd].permutations :=
  List.mem_permutations.2 (List.reverse_perm [unitMx, unitSr, unitPw, unitBd])

theorem test_witness_UnitsDoNotInterfere :
    (nextOf (tick (edgesNow true false))).isSome = true ∧
    (nextOf (tick { edgesNow true false with mx := lastSlot, fifo := [⟨.b1, .l1⟩] })).isSome = true ∧
    (edgesNow true false).level .l0 = true ∧ State.level { edgesNow true false with mx := lastSlot } .l0 = true := by decide

theorem test_witness_ResetMeetsTheInvariant : Config.rc0.wf = true ∧ (tinyCfg true).wf = true := by decide

theorem test_witness_StepKeepsTheInvariant : rc0.Inv ∧ pressStart.Inv ∧ (nextOf (step pressStart)).isSome = true :=
  ⟨by decide, by decide, by decide⟩

theorem test_witness_BlockNeverStops : rc0.Inv ∧ (withCmd 0x80000018).Inv ∧ pressStart.Inv :=
  ⟨by decide, by decide, by decide⟩

end Sys2Proof.Tests
end

section
/-! PROOFS. O50: under R6 the classification of R226 and R227 sends every expected value of a table to its own entry. -/

namespace Sys2Proof.Machine

/-! ### The tolerance tests and the lookup -/

/-- R226: an LT2X entry matches exactly the samples below twice its expected value. -/
theorem entryMatches_lt2x_iff (c : Config) (l : Line) {e : Entry} (h : e.kind = .lt2x) (s : Nat) :
    entryMatches c l e s = true ↔ s < 2 * e.expected := by
  simp [entryMatches, h]

/-- R226: a BAND entry matches exactly the samples of its band, both ends included. -/
theorem entryMatches_band_iff (c : Config) (l : Line) {e : Entry} (h : e.kind = .band) (s : Nat) :
    entryMatches c l e s = true ↔ c.bandLo l * e.expected ≤ 100 * s ∧ 100 * s ≤ c.bandHi l * e.expected := by
  simp [entryMatches, h]

/-- R227: a matching first entry is the answer. -/
theorem lookupButton_cons_of_match {c : Config} {l : Line} {s : Nat} {e : Entry} (h : entryMatches c l e s = true)
    (rest : List Entry) : lookupButton c l s (e :: rest) = some e.button := if_pos h

/-- R227: an entry that does not match is passed over. -/
theorem lookupButton_cons_of_not_match {c : Config} {l : Line} {s : Nat} {e : Entry} (h : entryMatches c l e s = false)
    (rest : List Entry) : lookupButton c l s (e :: rest) = lookupButton c l s rest :=
  if_neg (Bool.eq_false_iff.mp h)

/-! ### What R6 says of a line's table -/

/-- The clauses of R6 about one line, taken out of the whole check. -/
theorem wf_line {c : Config} (h : c.wf = true) (l : Line) :
    c.wfExpected l = true ∧ c.wfBand l = true ∧ Config.wfOrder c l [] (c.table l) = true := by
  simp only [Config.wf, Bool.and_eq_true] at h
  obtain ⟨⟨_, ⟨hExp0, hBand0⟩, hOrd0⟩, ⟨hExp1, hBand1⟩, hOrd1⟩ := h
  cases l
  · exact ⟨hExp0, hBand0, hOrd0⟩
  · exact ⟨hExp1, hBand1, hOrd1⟩

/-- R6: an expected value is at least 1. -/
theorem expected_pos {c : Config} {l : Line} {e : Entry} (h : c.wfExpected l = true) (he : e ∈ c.table l) :
    1 ≤ e.expected := by
  have hAll := List.all_eq_true.mp h e he
  simp only [Bool.and_eq_true, decide_eq_true_eq] at hAll
  exact hAll.1

/-- R6: the percentages of a band enclose 100. -/
theorem wfBand_iff (c : Config) (l : Line) : c.wfBand l = true ↔ c.bandLo l ≤ 100 ∧ 100 ≤ c.bandHi l := by
  simp [Config.wfBand]

/-- R6: no entry already passed matches the expected value of an entry still to come. -/
theorem not_match_of_wfOrder {c : Config} {l : Line} {earlier t : List Entry} (h : Config.wfOrder c l earlier t = true)
    {j e : Entry} (hj : j ∈ earlier) (he : e ∈ t) : entryMatches c l j e.expected = false := by
  induction t generalizing earlier with
  | nil => cases he
  | cons x rest ih =>
    obtain ⟨hx, hrest⟩ := Bool.and_eq_true_iff.mp h
    rcases List.mem_cons.mp he with rfl | he
    · simpa using List.all_eq_true.mp hx j hj
    · exact ih hrest (List.mem_append_left _ hj) he

/-- Under R6's order of a table, an entry that matches its own expected value is the one the lookup finds for it. -/
theorem lookupButton_expected {c : Config} {l : Line} {earlier t : List Entry} (h : Config.wfOrder c l earlier t = true)
    {e : Entry} (he : e ∈ t) (hm : entryMatches c l e e.expected = true) :
    lookupButton c l e.expected t = some e.button := by
  induction t generalizing earlier with
  | nil => cases he
  | cons x rest ih =>
    rcases List.mem_cons.mp he with rfl | he
    · exact lookupButton_cons_of_match hm rest
    · obtain ⟨_, hrest⟩ := Bool.and_eq_true_iff.mp h
      have hx : entryMatches c l x e.expected = false := not_match_of_wfOrder hrest (by simp) he
      rw [lookupButton_cons_of_not_match hx]
      exact ih hrest he

/-- R232: an entry matches its own expected value, whatever its tolerance. -/
theorem entryMatches_expected {c : Config} {l : Line} {e : Entry} (hpos : 1 ≤ e.expected) (hBand : c.wfBand l = true) :
    entryMatches c l e e.expected = true := by
  obtain ⟨hLo, hHi⟩ := (wfBand_iff c l).mp hBand
  cases hk : e.kind with
  | lt2x =>
    rw [entryMatches_lt2x_iff c l hk]
    omega
  | band =>
    rw [entryMatches_band_iff c l hk]
    exact ⟨Nat.mul_le_mul_right _ hLo, Nat.mul_le_mul_right _ hHi⟩

/-- R232: both ends of a band belong to it. -/
theorem entryMatches_band_end {c : Config} {l : Line} {e : Entry} (hk : e.kind = .band) (hBand : c.wfBand l = true) {s : Nat}
    (hs : 100 * s = c.bandLo l * e.expected ∨ 100 * s = c.bandHi l * e.expected) : entryMatches c l e s = true := by
  obtain ⟨hLo, hHi⟩ := (wfBand_iff c l).mp hBand
  have hle : c.bandLo l * e.expected ≤ c.bandHi l * e.expected := Nat.mul_le_mul_right _ (hLo.trans hHi)
  rw [entryMatches_band_iff c l hk]
  rcases hs with hs | hs
  · exact ⟨hs.ge, hs.trans_le hle⟩
  · exact ⟨hle.trans hs.ge, hs.le⟩

/-- R232: the LT2X test is strict. -/
theorem entryMatches_lt2x_double (c : Config) (l : Line) {e : Entry} (hk : e.kind = .lt2x) :
    entryMatches c l e (2 * e.expected) = false := by
  rw [Bool.eq_false_iff, ne_eq, entryMatches_lt2x_iff c l hk]
  exact Nat.lt_irrefl _

/-- Settles O50: R6's order keeps every earlier entry off an expected value, and each entry matches its own. -/
theorem expectedValueClassifiesToItsButton : Obligations.ExpectedValueClassifiesToItsButton := by
  intro c l e hwf he
  obtain ⟨hExp, hBand, hOrd⟩ := wf_line hwf l
  have hm : entryMatches c l e e.expected = true := entryMatches_expected (expected_pos hExp he) hBand
  exact ⟨lookupButton_expected hOrd he hm, hm, fun hk _ hs => entryMatches_band_end hk hBand hs,
    fun hk => entryMatches_lt2x_double c l hk⟩

end Sys2Proof.Machine
end

section
/-! PROOFS. O12: the configuration is checked before the start, and every operation of a step keeps it. -/

namespace Sys2Proof.Machine

/-! ### The start -/

theorem State.start_of_wf {c : Config} (h : c.wf = true) : State.start c = .next (State.resetWith c) := if_pos h

theorem State.start_of_not_wf {c : Config} (h : c.wf = false) : State.start c = .refused .illFormedConfig :=
  if_neg (Bool.eq_false_iff.mp h)

/-! ### What a command does to the configuration -/

@[simp] theorem State.reject_cfg (s : State) (a : Cause) : (s.reject a).cfg = s.cfg := rfl

@[simp] theorem State.readReg_cfg (s : State) (r : Reg) : (s.readReg r).cfg = s.cfg := rfl

@[simp] theorem State.popEvent_cfg (s : State) : s.popEvent.cfg = s.cfg := rfl

@[simp] theorem State.setCmds_cfg (s : State) (cs : List (Nat × Word)) : (s.setCmds cs).cfg = s.cfg := rfl

@[simp] theorem State.resetBoundary_cfg (s : State) : s.resetBoundary.cfg = s.cfg := rfl

@[simp] theorem State.writeClock_cfg (s : State) (legal : Bool) (v : Clock) : (s.writeClock legal v).cfg = s.cfg := by
  rcases s.writeClock_cases legal v with ⟨_, h⟩ | ⟨_, h⟩ <;> simp [h]

@[simp] theorem State.writeStatus_cfg (s : State) (d : Data) : (s.writeStatus d).cfg = s.cfg := by
  rcases s.writeStatus_cases d with ⟨_, h⟩ | ⟨_, h⟩ <;> simp [h]

/-- All a command can do (R260): a read answers, RD EVENT pops besides, and a write goes to the Clock State or to STATUS. -/
theorem exec_cases (i : Instr) (s : State) :
    (∃ r, exec i s = .next (s.readReg r)) ∨
      (i = .rdEvent ∧ exec i s = .next (s.readReg .event).popEvent) ∨
      (∃ legal v, exec i s = .next (s.writeClock legal v)) ∨
      (∃ d, i = .wrStatus d ∧ exec i s = .next (s.writeStatus d)) := by
  cases i
  case rdEvent => exact .inr (.inl ⟨rfl, rfl⟩)
  case wrStatus d => exact .inr (.inr (.inr ⟨d, rfl, rfl⟩))
  case rdHours | rdMinutes | rdHasAlarm | rdAlarmEnabled | rdError | rdRegularDim | rdCeilingDim | rdRefreshRate |
      rdCeilingUp | rdStatus | rdLastSample | rdPressDuration =>
    exact .inl ⟨_, rfl⟩
  case wrHours | wrMinutes | wrHasAlarm | wrAlarmEnabled | wrError | wrRegularDim | wrCeilingDim | wrRefreshRate |
      wrCeilingUp =>
    exact .inr (.inr (.inl ⟨_, _, rfl⟩))

/-- A command answers with a state of the same configuration. -/
theorem exec_next_cfg (i : Instr) (s : State) : ∃ t, exec i s = .next t ∧ t.cfg = s.cfg := by
  rcases exec_cases i s with ⟨r, h⟩ | ⟨_, h⟩ | ⟨legal, v, h⟩ | ⟨d, _, h⟩
  · exact ⟨_, h, s.readReg_cfg r⟩
  · exact ⟨_, h, ((s.readReg .event).popEvent_cfg).trans (s.readReg_cfg .event)⟩
  · exact ⟨_, h, s.writeClock_cfg legal v⟩
  · exact ⟨_, h, s.writeStatus_cfg d⟩

/-- A command word, decoded or rejected, answers with a state of the same configuration. -/
theorem execWord_next_cfg (w : Word) (s : State) : ∃ t, execWord w s = .next t ∧ t.cfg = s.cfg := by
  rcases execWord_cases w s with ⟨i, _, h⟩ | ⟨a, _, h⟩
  · rw [h]
    exact exec_next_cfg i s
  · exact ⟨_, h, s.reject_cfg a⟩

/-! ### What a step does to the configuration -/

theorem tick_cfg {s t : State} (h : tick s = .next t) : t.cfg = s.cfg := by
  obtain ⟨m, r, p, _, _, _, rfl⟩ := tick_next h
  exact finishTick_cfg s m r p

theorem step_cfg {s t : State} (h : step s = .next t) : t.cfg = s.cfg := by
  rcases step_cases s with ⟨_, hs⟩ | ⟨_, w, rest, _, hs⟩ | ⟨_, _, hs⟩
  · obtain rfl := Host.Outcome.next.inj (hs.symm.trans h)
    exact s.resetBoundary_cfg
  · obtain ⟨u, hu, hcfg⟩ := execWord_next_cfg w (s.setCmds rest)
    obtain rfl := Host.Outcome.next.inj ((hs.trans hu).symm.trans h)
    exact hcfg.trans (s.setCmds_cfg rest)
  · exact tick_cfg (hs.symm.trans h)

/-- Settles O12: the check of R6 at the start, and the configuration kept by RESET, by every command and by the tick. -/
theorem onlyWellFormedConfigsStart : Obligations.OnlyWellFormedConfigsStart :=
  ⟨fun _ h => State.start_of_wf h, fun _ h => State.start_of_not_wf h, Config.chip.ok, fun _ _ h => step_cfg h⟩

end Sys2Proof.Machine
end

section
/-! PROOFS. O26: what each operation of a step does to the event FIFO. Only the classification of BD appends (R229), only
RD EVENT removes (R33), only RESET empties. -/

namespace Sys2Proof.Machine

/-! ### Commands -/

@[simp] theorem State.reject_fifo (s : State) (a : Cause) : (s.reject a).fifo = s.fifo := rfl

@[simp] theorem State.readReg_fifo (s : State) (r : Reg) : (s.readReg r).fifo = s.fifo := rfl

@[simp] theorem State.popEvent_fifo (s : State) : s.popEvent.fifo = s.fifo.tail := rfl

@[simp] theorem State.setCmds_fifo (s : State) (cs : List (Nat × Word)) : (s.setCmds cs).fifo = s.fifo := rfl

@[simp] theorem State.resetBoundary_fifo (s : State) : s.resetBoundary.fifo = [] := rfl

@[simp] theorem State.writeClock_fifo (s : State) (legal : Bool) (v : Clock) : (s.writeClock legal v).fifo = s.fifo := by
  rcases s.writeClock_cases legal v with ⟨_, h⟩ | ⟨_, h⟩ <;> simp [h]

@[simp] theorem State.writeStatus_fifo (s : State) (d : Data) : (s.writeStatus d).fifo = s.fifo := by
  rcases s.writeStatus_cases d with ⟨_, h⟩ | ⟨_, h⟩ <;> simp [h]

/-- RD EVENT removes the head, every other command keeps the FIFO (R33). -/
theorem exec_next_fifo (i : Instr) (s : State) :
    ∃ t, exec i s = .next t ∧ (t.fifo = s.fifo ∨ (i = .rdEvent ∧ t.fifo = s.fifo.tail)) := by
  rcases exec_cases i s with ⟨r, h⟩ | ⟨hi, h⟩ | ⟨legal, v, h⟩ | ⟨d, _, h⟩
  · exact ⟨_, h, .inl (s.readReg_fifo r)⟩
  · exact ⟨_, h, .inr ⟨hi, (s.readReg .event).popEvent_fifo⟩⟩
  · exact ⟨_, h, .inl (s.writeClock_fifo legal v)⟩
  · exact ⟨_, h, .inl (s.writeStatus_fifo d)⟩

/-- A command word keeps the FIFO, or it is RD EVENT's and removes the head (R33, R300). -/
theorem execWord_next_fifo (w : Word) (s : State) :
    ∃ t, execWord w s = .next t ∧ (t.fifo = s.fifo ∨ (decode w = .cmd .rdEvent ∧ t.fifo = s.fifo.tail)) := by
  rcases execWord_cases w s with ⟨i, hi, h⟩ | ⟨a, _, h⟩
  · obtain ⟨t, ht, hf⟩ := exec_next_fifo i s
    exact ⟨t, h.trans ht, hf.imp_right fun ⟨hrd, hp⟩ => ⟨hrd ▸ hi, hp⟩⟩
  · exact ⟨_, h, .inl (s.reject_fifo a)⟩

/-! ### The phases of BD -/

/-- From s to t at most one event was appended, and only below the depth (R229). -/
def FifoAppends (s t : State) : Prop :=
  t.fifo = s.fifo ∨ (s.fifo.length < s.cfg.evtDepth ∧ ∃ e : Event, t.fifo = s.fifo ++ [e])

theorem fifoAppends_pushEvent (s : State) (b : Button) (l : Line) : FifoAppends s (s.pushEvent b l) := by
  rcases s.pushEvent_cases b l with ⟨hlt, h⟩ | ⟨_, h⟩ <;> rw [h]
  · exact .inr ⟨hlt, ⟨b, l⟩, rfl⟩
  · exact .inl rfl

theorem fifoAppends_classify (s : State) : FifoAppends s (classify s) := by
  unfold classify
  rcases classifySample_cases s (combineSamples s.cfg s.bd.s1 s.bd.s2) with ⟨_, h⟩ | ⟨_, _, _, h⟩ | ⟨v, b, _, _, h⟩ <;> rw [h]
  · exact .inl rfl
  · exact .inl rfl
  · exact fifoAppends_pushEvent (s.setLastSample _) b s.bd.line

@[simp] theorem beginService_fifo (s : State) (l : Line) : (beginService s l).fifo = s.fifo := s.setEdge_fifo l _

@[simp] theorem idleCheck_fifo (s : State) : (idleCheck s).fifo = s.fifo := by
  rcases idleCheck_cases s with ⟨_, h⟩ | ⟨_, _, h⟩ | ⟨_, _, h⟩ <;> simp [h]

@[simp] theorem enterIdle_fifo (s : State) : (enterIdle s).fifo = s.fifo := idleCheck_fifo (s.setBd _)

@[simp] theorem enterHold_fifo (s : State) : (enterHold s).fifo = s.fifo := rfl

@[simp] theorem endHold_fifo (s : State) (timeout : Bool) : (endHold s timeout).fifo = s.fifo := rfl

@[simp] theorem debounceStep_fifo (s : State) : (debounceStep s).fifo = s.fifo := by
  unfold debounceStep
  split_ifs <;> simp

@[simp] theorem dischargeStep_fifo (s : State) (next : BdPhase) : (dischargeStep s next).fifo = s.fifo := by
  unfold dischargeStep
  split_ifs <;> simp

@[simp] theorem holdStep_fifo (s : State) : (holdStep s).fifo = s.fifo := by
  unfold holdStep
  split_ifs <;> simp

@[simp] theorem finalDischargeStep_fifo (s : State) : (finalDischargeStep s).fifo = s.fifo := by
  unfold finalDischargeStep
  split_ifs <;> simp

theorem fifoAppends_endMeasure1 (s : State) : FifoAppends s (endMeasure1 s) := by
  unfold endMeasure1
  split
  · exact .inl rfl
  · exact fifoAppends_classify s

theorem fifoAppends_measureStep1 (s : State) : FifoAppends s (measureStep1 s) := by
  unfold measureStep1
  split
  · exact fifoAppends_endMeasure1 (s.setBd _)
  · exact .inl rfl

theorem fifoAppends_measureStep2 (s : State) : FifoAppends s (measureStep2 s) := by
  unfold measureStep2
  split
  · exact fifoAppends_classify (s.setBd _)
  · exact .inl rfl

/-- Of BD's phases only the two measurements, which end in a classification, can append (R217, R222). -/
theorem fifoAppends_bdPhaseStep (s : State) : FifoAppends s (bdPhaseStep s) := by
  unfold bdPhaseStep
  cases s.bd.phase with
  | idle => exact .inl (idleCheck_fifo s)
  | debounce => exact .inl (debounceStep_fifo s)
  | dis1 => exact .inl (dischargeStep_fifo s .meas1)
  | meas1 => exact fifoAppends_measureStep1 s
  | dis2 => exact .inl (dischargeStep_fifo s .meas2)
  | meas2 => exact fifoAppends_measureStep2 s
  | hold => exact .inl (holdStep_fifo s)
  | disf => exact .inl (finalDischargeStep_fifo s)

/-! ### What a step does to the FIFO -/

theorem fifoAppends_tick {s t : State} (h : tick s = .next t) : FifoAppends s t := by
  obtain ⟨m, r, p, _, _, _, rfl⟩ := tick_next h
  exact fifoAppends_bdPhaseStep (beforeBd s m r p)

/-- All a step can do to the FIFO: keep it, append by a tick, remove the head by RD EVENT, or empty it by RESET (R34). -/
theorem step_fifo_cases {s t : State} (h : step s = .next t) :
    t.fifo = s.fifo ∨
      (s.tickIsNext = true ∧ s.fifo.length < s.cfg.evtDepth ∧ ∃ e : Event, t.fifo = s.fifo ++ [e]) ∨
      (s.resetAsserted = false ∧ (∃ w rest, s.nextCmd = some (w, rest) ∧ decode w = .cmd .rdEvent) ∧
        ∃ e : Event, s.fifo = e :: t.fifo) ∨
      (s.resetAsserted = true ∧ t.fifo = []) := by
  rcases step_cases s with ⟨hr, hs⟩ | ⟨hr, w, rest, hc, hs⟩ | ⟨hr, hc, hs⟩
  case inl =>
    obtain rfl := Host.Outcome.next.inj (hs.symm.trans h)
    exact .inr (.inr (.inr ⟨hr, s.resetBoundary_fifo⟩))
  case inr.inl =>
    obtain ⟨u, hu, hf⟩ := execWord_next_fifo w (s.setCmds rest)
    obtain rfl := Host.Outcome.next.inj ((hs.trans hu).symm.trans h)
    rw [State.setCmds_fifo] at hf
    rcases hf with hf | ⟨hw, hf⟩
    · exact .inl hf
    · cases hq : s.fifo with
      | nil => exact .inl (by rw [hf, hq, List.tail_nil])
      | cons e q => exact .inr (.inr (.inl ⟨hr, ⟨w, rest, hc, hw⟩, e, by rw [hf, hq, List.tail_cons]⟩))
  case inr.inr =>
    have htick : s.tickIsNext = true := by simp [State.tickIsNext, hr, hc]
    exact (fifoAppends_tick (hs.symm.trans h)).imp_right fun ⟨hlt, he⟩ => .inl ⟨htick, hlt, he⟩

theorem step_fifo_length_le {s t : State} (h : step s = .next t) (hs : s.fifo.length ≤ s.cfg.evtDepth) :
    t.fifo.length ≤ s.cfg.evtDepth := by
  rcases step_fifo_cases h with hf | ⟨_, hlt, e, hf⟩ | ⟨_, _, e, hf⟩ | ⟨_, hf⟩
  · rwa [hf]
  · rw [hf, List.length_append, List.length_singleton]
    exact hlt
  · rw [hf, List.length_cons] at hs
    exact Nat.le_of_succ_le hs
  · rw [hf]
    exact Nat.zero_le _

theorem buttonCode_le (b : Button) : (buttonCode b).toNat ≤ 8 := by cases b <;> decide

/-- Settles O26, by the cases of a step: RESET, a command, a tick. -/
theorem fifoOnlyAppendsAndPops : Obligations.FifoOnlyAppendsAndPops :=
  ⟨fun _ => rfl, buttonCode_le, fun _ _ h => ⟨step_fifo_length_le h, step_fifo_cases h⟩⟩

end Sys2Proof.Machine
end

section
/-! PROOFS. O25: EVT_IRQ and bit 4 of the STATUS word are both the FIFO's being non-empty. -/

namespace Sys2Proof.Machine

theorem State.evtIrq_iff (s : State) : s.evtIrq = true ↔ s.fifo ≠ [] := by simp [State.evtIrq]

/-- The one bit flagBit places. -/
theorem getElem_flagBit (p : Nat) (b : Bool) {i : Nat} (h : i < 24) : (flagBit p b)[i] = (b && decide (i = p)) := by
  cases b with
  | false => simp [flagBit]
  | true =>
    have hp : (!decide (i < p) && decide (i - p = 0)) = decide (i = p) := by
      rw [Bool.eq_iff_iff]
      simp only [Bool.and_eq_true, Bool.not_eq_true', decide_eq_false_iff_not, decide_eq_true_iff]
      omega
    simpa [flagBit] using hp

/-- Bit 4 of the STATUS word is EVT_NONEMPTY: EVT_COUNT begins at bit 8 and BADCMD_CAUSE at bit 12 (R30, R270). -/
theorem statusWord_getLsbD_four (st : Status) (count : Nat) : (statusWord st count).getLsbD 4 = decide (0 < count) := by
  simp [statusWord, getElem_flagBit]

/-- Settles O25: both sides say that the FIFO is non-empty. -/
theorem evtIrqIsFifoNonEmpty : Obligations.EvtIrqIsFifoNonEmpty := by
  refine ⟨fun s => ⟨s.evtIrq_iff, ?_⟩, rfl⟩
  have hbit : (s.regValue .status).getLsbD 4 = decide (0 < s.fifo.length) := statusWord_getLsbD_four s.status s.fifo.length
  rw [hbit, Bool.eq_iff_iff, s.evtIrq_iff, decide_eq_true_iff, List.length_pos_iff]

end Sys2Proof.Machine
end

section
/-! PROOFS. O1: the mask 0xFF000000 of R85 keeps OP, RSV and ADDR, so a row fixes what R82 answers on its words, and the words
R82 takes for commands are those of the rows. -/

namespace Sys2Proof

/-! ### What the mask keeps -/

@[simp] theorem fieldOp_masked (w : Word) : fieldOp (w &&& 0xFF000000#32) = fieldOp w := by
  simp [fieldOp]

@[simp] theorem fieldRsv_masked (w : Word) : fieldRsv (w &&& 0xFF000000#32) = fieldRsv w := by
  have hm : (0xFF000000#32).extractLsb' 28 3 = BitVec.allOnes 3 := by decide
  rw [fieldRsv, BitVec.extractLsb'_and, hm, BitVec.and_allOnes, fieldRsv]

@[simp] theorem fieldAddr_masked (w : Word) : fieldAddr (w &&& 0xFF000000#32) = fieldAddr w := by
  have hm : (0xFF000000#32).extractLsb' 24 4 = BitVec.allOnes 4 := by decide
  rw [fieldAddr, BitVec.extractLsb'_and, hm, BitVec.and_allOnes, fieldAddr]

/-- DATA is the word's low 24 bits (R84). -/
theorem fieldData_eq_setWidth (w : Word) : fieldData w = w.setWidth 24 :=
  (BitVec.setWidth_eq_extractLsb' (by decide)).symm

/-- A word whose masked bits are OP and ADDR alone is of format HC with RSV = 0. -/
theorem eq_hcWord_of_masked {w : Word} {op : Bool} {a : BitVec 4} (h : w &&& 0xFF000000#32 = hcWord op a 0) :
    w = hcWord op a (w.setWidth 24) := by
  have hop : fieldOp w = op := by rw [← fieldOp_masked, h, fieldOp_hcWord]
  have hrsv : fieldRsv w = 0 := by rw [← fieldRsv_masked, h, fieldRsv_hcWord]
  have haddr : fieldAddr w = a := by rw [← fieldAddr_masked, h, fieldAddr_hcWord]
  have hw := eq_hcWord hrsv
  rwa [hop, haddr, fieldData_eq_setWidth] at hw

/-! ### The rows and the decoder's two halves -/

/-- A row's `match` word is an OP and an ADDR, on which the decoder answers the row's command. -/
theorem opcodeMap_row {row : Word × (Data → Instr)} (h : row ∈ opcodeMap) :
    ∃ op a, row.1 = hcWord op a 0 ∧ ∀ d, decode (hcWord op a d) = .cmd (row.2 d) := by
  refine ⟨fieldOp row.1, fieldAddr row.1, ?_⟩
  simp only [decode_hcWord]
  fin_cases h <;> exact ⟨rfl, fun _ => rfl⟩

/-- R85: the reads of the map are the addresses up to 0xC, its writes those up to 0x9. -/
theorem hcWord_mem_opcodeMap_iff (op : Bool) (a : BitVec 4) :
    hcWord op a 0 ∈ opcodeMap.map Prod.fst ↔ a.toNat ≤ if op then 9 else 12 := by
  revert op a
  decide

/-- R82: a read beyond address 0xC is rejected. -/
theorem decodeRead_rejects {a : BitVec 4} (h : 12 < a.toNat) : ∃ c, decodeRead a = .reject c := by
  unfold decodeRead
  split
  case h_14 => exact ⟨_, rfl⟩
  all_goals omega

/-- R82: a write beyond address 0x9 is rejected. -/
theorem decodeWrite_rejects {a : BitVec 4} (h : 9 < a.toNat) (d : Data) : ∃ c, decodeWrite a d = .reject c := by
  unfold decodeWrite
  split
  case h_11 | h_12 | h_13 | h_14 => exact ⟨_, rfl⟩
  all_goals omega

/-- R85: a word that no row matches is rejected, for RSV or for its address. -/
theorem decode_rejects_of_not_mem {w : Word} (h : w &&& 0xFF000000#32 ∉ opcodeMap.map Prod.fst) :
    ∃ c, decode w = .reject c := by
  by_cases hrsv : fieldRsv w = 0
  · rw [eq_hcWord hrsv, Laws.TableRow.hcWord_masked, hcWord_mem_opcodeMap_iff, Nat.not_le] at h
    rw [eq_hcWord hrsv, decode_hcWord]
    cases hop : fieldOp w with
    | false => exact decodeRead_rejects (by simpa [hop] using h)
    | true => exact decodeWrite_rejects (by simpa [hop] using h) _
  · exact ⟨.rsvBits, if_pos hrsv⟩

/-- Settles O1: a row's words carry its OP and ADDR, and the decoder's remaining addresses are rejections. -/
theorem decodeFollowsTheOpcodeMap : Obligations.DecodeFollowsTheOpcodeMap := by
  refine ⟨fun w row hrow h => ?_, fun w h => decode_rejects_of_not_mem fun hmem => ?_, rfl, by decide⟩
  · obtain ⟨op, a, hmatch, hcmd⟩ := opcodeMap_row hrow
    calc decode w = decode (hcWord op a (w.setWidth 24)) := congrArg decode (eq_hcWord_of_masked (h.trans hmatch))
      _ = .cmd (row.2 (w.setWidth 24)) := hcmd _
  · obtain ⟨row, hrow, hmatch⟩ := List.mem_map.mp hmem
    exact h row hrow hmatch.symm

end Sys2Proof
end

section
/-! SUPPORT. The segment encoder (R100 to R111): what each of its functions answers, stated once. -/

namespace Sys2Proof.Machine

theorem glyph_of_le (c : Config) {d : Nat} (h : d ≤ 9) : glyph c d = c.seg[d]'(Nat.lt_succ_of_le h) := dif_pos h

theorem glyph_of_gt (c : Config) {d : Nat} (h : 9 < d) : glyph c d = c.segBlank := dif_neg (Nat.not_le.mpr h)

/-! ### The icon columns -/

/-- R104: the condition of the alarm-disabled icon, mode by mode. -/
theorem alarmDisabled_iff (c : Config) (has en : Bool) : alarmDisabled c has en = true ↔
    (c.alarmDisabledMode = .notEnabled ∧ en = false) ∨
      (c.alarmDisabledMode = .presentAndNotEnabled ∧ has = true ∧ en = false) := by
  cases hmode : c.alarmDisabledMode with
  | notEnabled => simp [alarmDisabled, hmode]
  | presentAndNotEnabled => simp [alarmDisabled, hmode]

theorem getLsbD_leftIcons_iff (c : Config) (has en : Bool) {r : Nat} (hr : r < 7) :
    (leftIcons c has en).getLsbD r = true ↔
      (r = c.iconPresentPos.val ∧ has = true) ∨ (r = c.iconDisabledPos.val ∧ alarmDisabled c has en = true) := by
  simp [leftIcons, getLsbD_bitAt _ _ hr, and_comm]

/-- R105: a row is lit by the bits of the clamped code that ERR_POS sends there. -/
theorem getLsbD_rightIcons_iff (c : Config) (e : BitVec 8) {r : Nat} (hr : r < 7) :
    (rightIcons c e).getLsbD r = true ↔ ∃ k : Fin 4, c.errPos[k].val = r ∧ (clamp15 e.toNat).testBit k.val = true := by
  simp [rightIcons, getLsbD_bitAt _ _ hr, Fin.exists_fin_succ, and_comm, eq_comm (a := r), or_assoc]

/-! ### The wire groups -/

/-- R109: wire bit j is what the selected table's entry j gives. -/
theorem getLsbD_mangle (c : Config) (up : Bool) (seg : Pattern) (j : Fin 8) :
    (mangle c up seg).getLsbD j.val = mangleBit (c.mangleTable up)[j] seg := by
  rw [mangle, BitVec.getLsbD_ofNat, testBit_bitsToNat]
  simp

/-- R109: only the sentinel gives a wire bit that no segment can light. -/
theorem forall_mangleBit_eq_false_iff (t : Fin 8) : (∀ seg : Pattern, mangleBit t seg = false) ↔ t = 7 := by
  constructor
  · intro hdark
    by_contra hne
    have hlt : t.val < 7 := by omega
    have hlit : mangleBit t (BitVec.allOnes 7) = true := by
      rw [mangleBit, if_neg hlt.ne, BitVec.getLsbD_allOnes, decide_eq_true hlt]
    exact Bool.false_ne_true ((hdark _).symm.trans hlit)
  · rintro rfl _
    rfl

/-- A table of eight entries without a repeat holds each of 0..7 at exactly one place. -/
theorem existsUnique_getElem_of_nodup {t : Vector (Fin 8) 8} (h : t.toList.Nodup) (x : Fin 8) : ∃! j : Fin 8, t[j] = x := by
  have hinj : Function.Injective fun j : Fin 8 => t[j] := by
    intro i j hij
    have hlen : t.toList.length = 8 := t.length_toList
    exact Fin.ext ((h.getElem_inj_iff (hi := by omega) (hj := by omega)).mp hij)
  exact (Finite.injective_iff_bijective.mp hinj).existsUnique x

/-- R110: slot j carries digit position j when the ceiling is up, position 3 - j when it is down. -/
theorem groupOrder_getElem (up : Bool) (j : Fin 4) : (groupOrder up)[j] = if up then j else Fin.rev j := by
  revert up j
  decide

theorem ceilingGroups_getElem (c : Config) (k : Clock) (j : Fin 4) : (ceilingGroups c k)[j] = ceilingGroup c k j := by
  fin_cases j <;> rfl

/-- R111: the group of slot j under the orientation up, whatever the Clock State's own. -/
theorem ceilingGroup_withCeilingUp (c : Config) (k : Clock) (up : Bool) (j : Fin 4) :
    ceilingGroup c { k with ceilingUp := up } j = mangle c up (glyph c (ceilingDigits k)[(groupOrder up)[j]]) := rfl

end Sys2Proof.Machine
end

section
/-! PROOFS. O27 to O31 and O33: the statements about the segment encoder, each from the encoder's lemmas. -/

namespace Sys2Proof.Machine

/-- Settles O28: the present bit is has_alarm, and the disabled bit the condition that the mode selects. -/
theorem leftIconBits : Obligations.LeftIconBits := by
  intro c has en r hr
  rw [getLsbD_leftIcons_iff c has en hr, alarmDisabled_iff, and_or_left]

/-- Settles O29: the clamp of R106 is the minimum with 15. -/
theorem rightIconsShowTheClampedError : Obligations.RightIconsShowTheClampedError :=
  fun c e _ hr => getLsbD_rightIcons_iff c e hr

/-- Settles O30: a wire bit follows its own table entry, and a permutation has the sentinel at one place. -/
theorem mangleRelocatesSegments : Obligations.MangleRelocatesSegments := by
  refine ⟨getLsbD_mangle, fun c up hnodup => ?_⟩
  simp only [getLsbD_mangle, forall_mangleBit_eq_false_iff]
  exact existsUnique_getElem_of_nodup hnodup 7

/-- Settles O31: both orientations read the same digits, in the order of R110 and under the table of R109. -/
theorem orientationFlipMirrorsTheSlots : Obligations.OrientationFlipMirrorsTheSlots := by
  refine ⟨fun _ => rfl, rfl, rfl, fun c k up j => ?_⟩
  rw [ceilingGroups_getElem, ceilingGroup_withCeilingUp]
  simp only [groupOrder_getElem]

/-- Settles O27: the two digits are quotient and remainder by 10, and the table of glyphs ends at 9. -/
theorem digitsAndGlyphs : Obligations.DigitsAndGlyphs := by
  refine ⟨fun v hv => ?_, fun c d => glyph_of_le c (Nat.le_of_lt_succ d.isLt), fun c _ hd => glyph_of_gt c hd⟩
  show 10 * (v / 10) + v % 10 = v ∧ v / 10 ≤ 9 ∧ v % 10 ≤ 9
  omega

/-- Settles O33: the columns are listed in R107's order. -/
theorem matrixColumnOrder : Obligations.MatrixColumnOrder := fun _ _ => rfl

end Sys2Proof.Machine
end

section
/-! SUPPORT. What the matrix scanner needs beside the shared laws: the lines driven, the timing of R140 as a whole, one
equation per phase of `advance()` (R143), and MX's step from each place a phase ends. -/

namespace Sys2Proof.Machine

/-! ### The lines -/

/-- R12: a driven line is at its active level exactly where it is on. -/
theorem getLsbD_driveLines (active : Bool) (on : Pattern) (j : Fin 7) :
    (driveLines active on).getLsbD j.val = if on.getLsbD j.val then active else !active := by
  cases active with
  | false => simp [driveLines]
  | true => simp [driveLines]

/-- The pattern of column i alone. -/
theorem getLsbD_oneColumn (i j : Fin 7) : (1#7 <<< i.val).getLsbD j.val = decide (j = i) := by
  revert i j
  decide

/-- R146: in a column slot the rows of its pattern are on, and its column. -/
theorem mxEmit_of_col (c : Config) {m : Mx} {i : Fin 7} (h : m.phase = .col i) :
    (mxEmit c m).row = driveLines c.rowActive m.pat[i] ∧ (mxEmit c m).col = driveLines c.colActive (1#7 <<< i.val) := by
  simp only [mxEmit, mxActiveRows, mxActiveCols, h, and_self]

/-- R146: in the pause nothing is on. -/
theorem mxEmit_of_pause (c : Config) {m : Mx} (h : m.phase = .pause) :
    (mxEmit c m).row = driveLines c.rowActive 0#7 ∧ (mxEmit c m).col = driveLines c.colActive 0#7 := by
  simp only [mxEmit, mxActiveRows, mxActiveCols, h, BitVec.ofNat_eq_ofNat, and_self]

/-! ### The timing of a cycle (R140, R150) -/

theorem pwmTiming_onTotal_add_pause {rate dim : Nat} (h : dim ≤ 100) :
    (pwmTiming rate dim).onTotal + (pwmTiming rate dim).pause = (pwmTiming rate dim).period :=
  Nat.add_sub_of_le (pwmTiming_onTotal_le h)

/-- R150: the seven slots and the pause fall short of the period by on_total mod 7. -/
theorem pwmTiming_cycle_add_mod {rate dim : Nat} (h : dim ≤ 100) :
    7 * (pwmTiming rate dim).colOn + (pwmTiming rate dim).pause + (pwmTiming rate dim).onTotal % 7 =
      (pwmTiming rate dim).period := by
  have hcol : (pwmTiming rate dim).colOn = (pwmTiming rate dim).onTotal / 7 := rfl
  have hsum := pwmTiming_onTotal_add_pause (rate := rate) h
  omega

/-- A cycle lasts: what it falls short of the period is below 7, and the period is not. -/
theorem pwmTiming_cycle_pos {rate dim : Nat} (h1 : 1 ≤ rate) (h2 : rate ≤ 142857) (h : dim ≤ 100) :
    1 ≤ 7 * (pwmTiming rate dim).colOn + (pwmTiming rate dim).pause := by
  have hcycle := pwmTiming_cycle_add_mod (rate := rate) h
  have hperiod : 7 ≤ (pwmTiming rate dim).period := periodUs_ge h1 h2
  omega

/-! ### The loop over zero-length phases -/

/-- A loop that ends within a bound ends the same way under any greater one. -/
theorem settle_mono {α : Type} {rem : α → Nat} {adv : α → α} {n n' : Nat} {a b : α} (hn : n ≤ n')
    (h : settle rem adv n a = some b) : settle rem adv n' a = some b := by
  induction n generalizing a n' with
  | zero =>
    by_cases h0 : rem a = 0
    · simp [settle, h0] at h
    · rwa [settle_of_rem n' h0, ← settle_of_rem 0 h0]
  | succ n ih =>
    by_cases h0 : rem a = 0
    · obtain ⟨n', rfl⟩ : ∃ e, n' = e + 1 := ⟨n' - 1, by omega⟩
      rw [settle_succ n h0] at h
      rw [settle_succ n' h0]
      exact ih (by omega) h
    · rwa [settle_of_rem n' h0, ← settle_of_rem (n + 1) h0]

/-! ### R143, phase by phase -/

theorem mxAdvance_enter_start (c : Config) (k : Clock) (m : Mx) (d : Nat) :
    mxAdvance c k (m.enter .start d) = (m.snapshot c k).enter (.col 0) (m.snapshot c k).colOn := rfl

theorem mxAdvance_enter_col_of_lt (c : Config) (k : Clock) (m : Mx) {i : Nat} (h : i < 6) (d : Nat) :
    mxAdvance c k (m.enter (.col ⟨i, by omega⟩) d) = m.enter (.col ⟨i + 1, by omega⟩) m.colOn := dif_pos h

theorem mxAdvance_enter_col_six (c : Config) (k : Clock) (m : Mx) (d : Nat) :
    mxAdvance c k (m.enter (.col 6) d) = m.enter .pause m.pause := rfl

theorem mxAdvance_enter_pause (c : Config) (k : Clock) (m : Mx) (d : Nat) :
    mxAdvance c k (m.enter .pause d) = m.enter .start 0 := rfl

/-- The lines driven take no part in `advance()`. -/
theorem mxAdvance_setLines (c : Config) (k : Clock) (m : Mx) (row col : Pattern) :
    mxAdvance c k { m with row := row, col := col } = { mxAdvance c k m with row := row, col := col } := by
  obtain ⟨phase, _⟩ := m
  cases phase with
  | start => rfl
  | col i =>
    simp only [mxAdvance]
    split <;> rfl
  | pause => rfl

/-- START lasts no tick. -/
def StartIsEmpty (m : Mx) : Prop := m.phase = .start → m.rem = 0

/-- R143: START is entered with no ticks. -/
theorem startIsEmpty_mxAdvance (c : Config) (k : Clock) (m : Mx) : StartIsEmpty (mxAdvance c k m) := by
  intro hstart
  cases hp : m.phase with
  | start => simp [mxAdvance, hp, Mx.enter] at hstart
  | col i =>
    by_cases hi : i.val < 6
    · simp [mxAdvance, hp, hi, Mx.enter] at hstart
    · simp [mxAdvance, hp, hi, Mx.enter] at hstart
  | pause => simp [mxAdvance, hp, Mx.enter]

/-- MX steps out of START or out of a phase that lasts, so what it holds after its step is not START. -/
theorem mxStep_phase_ne_start {c : Config} {k : Clock} {m t : Mx} (hm : m.Inv c) (h : mxStep c k m = some t) :
    t.phase ≠ .start := by
  obtain ⟨hslot, _, _⟩ := hm
  obtain ⟨m', hset, rfl⟩ := mxStep_some h
  have hinit : StartIsEmpty { m with rem := m.rem - 1 } := by
    intro hstart
    have hzero : mxSlot m = 0 := by simp only [mxSlot, show m.phase = .start from hstart]
    show m.rem - 1 = 0
    omega
  obtain ⟨_, _, _, hrem, _⟩ := settle_spec hset
  exact fun hstart => hrem (settle_keeps (fun x _ => startIsEmpty_mxAdvance c k x) hinit hset hstart)

/-! ### MX's step at the end of a phase -/

/-- A phase without ticks is left (R145). -/
theorem mxSettle_enter_empty (c : Config) (k : Clock) (m : Mx) (p : MxPhase) (n : Nat) {d : Nat} (hd : d = 0) :
    settle Mx.rem (mxAdvance c k) (n + 1) (m.enter p d) =
      settle Mx.rem (mxAdvance c k) n (mxAdvance c k (m.enter p d)) := settle_succ n hd

/-- MX's step is the loop of R145 from one tick less, then the lines of the phase held. -/
theorem mxStep_of_settle {c : Config} {k : Clock} {m t : Mx}
    (h : settle Mx.rem (mxAdvance c k) settleBound (m.enter m.phase (m.rem - 1)) = some t) :
    mxStep c k m = some (mxEmit c t) := by
  unfold mxStep
  rw [show settle Mx.rem (mxAdvance c k) settleBound { m with rem := m.rem - 1 } = some t from h]

/-- A phase that ends is followed by the next one, if that lasts (R145). -/
theorem mxStep_slot_end {c : Config} {k : Clock} {s t : Mx} {p : MxPhase} (hadv : mxAdvance c k (s.enter p 0) = t)
    (ht : t.rem ≠ 0) : mxStep c k (mxEmit c (s.enter p 1)) = some (mxEmit c t) := by
  have hlines := mxAdvance_setLines c k (s.enter p 0) (mxEmit c (s.enter p 1)).row (mxEmit c (s.enter p 1)).col
  rw [hadv] at hlines
  have hset := (mxSettle_enter_empty c k (mxEmit c (s.enter p 1)) p 9 rfl).trans
    ((congrArg _ hlines).trans (settle_of_rem 9 (by exact ht)))
  have hstep := mxStep_of_settle hset
  exact hstep

/-- A column slot that ends is followed by the next column's, with the pattern and the time of the same snapshot. -/
theorem mxStep_col_end (c : Config) (k : Clock) (s : Mx) {i : Nat} (hi : i < 6) (hlit : s.colOn ≠ 0) :
    mxStep c k (mxEmit c (s.enter (.col ⟨i, by omega⟩) 1)) = some (mxEmit c (s.enter (.col ⟨i + 1, by omega⟩) s.colOn)) :=
  mxStep_slot_end (mxAdvance_enter_col_of_lt c k _ hi 0) hlit

/-- The last column slot is followed by the pause, if there is one. -/
theorem mxStep_col_six_end (c : Config) (k : Clock) (s : Mx) (hpause : s.pause ≠ 0) :
    mxStep c k (mxEmit c (s.enter (.col 6) 1)) = some (mxEmit c (s.enter .pause s.pause)) :=
  mxStep_slot_end (mxAdvance_enter_col_six c k _ 0) hpause

/-- Where no column is lit, a boundary passes over all the columns from the one entered to the pause. -/
theorem settle_dark_columns (c : Config) (k : Clock) (s : Mx) (hdark : s.colOn = 0) (hpause : s.pause ≠ 0) (d : Nat)
    (hd : d ≤ 6) : settle Mx.rem (mxAdvance c k) (d + 1) (s.enter (.col ⟨6 - d, by omega⟩) s.colOn) =
      some (s.enter .pause s.pause) := by
  induction d with
  | zero =>
    rw [mxSettle_enter_empty c k s _ 0 hdark]
    exact settle_of_rem 0 hpause
  | succ d ih =>
    have hnext : 6 - (d + 1) + 1 = 6 - d := by omega
    rw [mxSettle_enter_empty c k s _ _ hdark, mxAdvance_enter_col_of_lt c k s (by omega)]
    simp only [hnext]
    exact ih (by omega)

/-- A boundary that leaves START goes on from START: PAUSE and an empty PAUSE after COL(6) are two phases at most. -/
theorem mxStep_of_leavesStart {c : Config} {k : Clock} {m t : Mx} (hm : mxLeavesStart m = true)
    (h : settle Mx.rem (mxAdvance c k) 8 (m.enter .start 0) = some t) : mxStep c k m = some (mxEmit c t) := by
  simp only [mxLeavesStart, Bool.and_eq_true, decide_eq_true_eq] at hm
  obtain ⟨hrem, hphase⟩ := hm
  have hset : settle Mx.rem (mxAdvance c k) settleBound (m.enter m.phase (m.rem - 1)) = some t := by
    rw [Nat.sub_eq_zero_of_le hrem, settleBound]
    cases hp : m.phase with
    | start => exact settle_mono (by omega) h
    | pause =>
      rw [mxSettle_enter_empty c k m _ 9 rfl, mxAdvance_enter_pause]
      exact settle_mono (by omega) h
    | col i =>
      simp only [hp, Bool.and_eq_true, decide_eq_true_eq] at hphase
      obtain ⟨hi, hpause⟩ := hphase
      obtain rfl : i = 6 := Fin.ext hi
      rw [mxSettle_enter_empty c k m _ 9 rfl, mxAdvance_enter_col_six, mxSettle_enter_empty c k m _ 8 hpause,
        mxAdvance_enter_pause]
      exact h
  exact mxStep_of_settle hset

/-- A cycle with lit columns begins with column 0, lit from the snapshot of its first boundary (R142). -/
theorem mxStep_leavesStart_lit {c : Config} {k : Clock} {m : Mx} (hm : mxLeavesStart m = true)
    (hlit : (m.snapshot c k).colOn ≠ 0) :
    mxStep c k m = some (mxEmit c ((m.snapshot c k).enter (.col 0) (m.snapshot c k).colOn)) := by
  apply mxStep_of_leavesStart hm
  rw [mxSettle_enter_empty c k m _ 7 rfl, mxAdvance_enter_start]
  exact settle_of_rem 7 hlit

/-- A cycle with no lit column begins with its pause. -/
theorem mxStep_leavesStart_dark {c : Config} {k : Clock} {m : Mx} (hm : mxLeavesStart m = true)
    (hdark : (m.snapshot c k).colOn = 0) (hpause : (m.snapshot c k).pause ≠ 0) :
    mxStep c k m = some (mxEmit c ((m.snapshot c k).enter .pause (m.snapshot c k).pause)) := by
  apply mxStep_of_leavesStart hm
  rw [mxSettle_enter_empty c k m _ 7 rfl, mxAdvance_enter_start]
  exact settle_dark_columns c k (m.snapshot c k) hdark hpause 6 le_rfl

end Sys2Proof.Machine
end

section
/-! PROOFS. O36: one cycle of MX, slot by slot: where each slot begins, and the countdown inside it. -/

namespace Sys2Proof.Machine

variable {c : Config} {clk : Nat → Clock} {m s : Mx} {p : MxPhase} {a d n : Nat}

/-- Inside a phase a run only counts its ticks down. -/
theorem mxRun_within (h : mxRun c clk a m = some (mxEmit c (s.enter p d))) (hn : n < d) :
    mxRun c clk (a + n) m = some (mxEmit c (s.enter p (d - n))) := by
  rw [mxRun_add, h]
  exact mxRun_countdown c _ (s.enter p d) hn

/-- A phase entered with d ticks is in its last one d - 1 boundaries later. -/
theorem mxRun_last (h : mxRun c clk a m = some (mxEmit c (s.enter p d))) (hd : d ≠ 0) :
    mxRun c clk (a + (d - 1)) m = some (mxEmit c (s.enter p 1)) := by
  rw [mxRun_within h (by omega), show d - (d - 1) = 1 by omega]

/-- After a phase's last tick a run makes the step that ends it. -/
theorem mxRun_end (h : mxRun c clk a m = some (mxEmit c (s.enter p d))) (hd : d ≠ 0) :
    mxRun c clk (a + d) m = mxStep c (clk (a + (d - 1))) (mxEmit c (s.enter p 1)) := by
  rw [show a + d = a + (d - 1) + 1 by omega, mxRun, mxRun_last h hd]

/-- R148: in a cycle with lit columns, column i is entered i * col_on boundaries after column 0. -/
theorem mxRun_col_begin (hm : mxLeavesStart m = true) (hlit : (m.snapshot c (clk 0)).colOn ≠ 0) {i : Nat} (hi : i < 7) :
    mxRun c clk (i * (m.snapshot c (clk 0)).colOn + 1) m =
      some (mxEmit c ((m.snapshot c (clk 0)).enter (.col ⟨i, hi⟩) (m.snapshot c (clk 0)).colOn)) := by
  induction i with
  | zero =>
    rw [Nat.zero_mul]
    exact mxStep_leavesStart_lit hm hlit
  | succ i ih =>
    rw [Nat.succ_mul, Nat.add_right_comm, mxRun_end (ih (by omega)) hlit, mxStep_col_end c _ _ (by omega) hlit]

/-- R148: a pause that lasts is entered when the seven column slots are over, lit or empty. -/
theorem mxRun_pause_begin (hm : mxLeavesStart m = true) (hpause : (m.snapshot c (clk 0)).pause ≠ 0) :
    mxRun c clk (7 * (m.snapshot c (clk 0)).colOn + 1) m =
      some (mxEmit c ((m.snapshot c (clk 0)).enter .pause (m.snapshot c (clk 0)).pause)) := by
  by_cases hdark : (m.snapshot c (clk 0)).colOn = 0
  · rw [hdark]
    exact mxStep_leavesStart_dark hm hdark hpause
  · rw [Nat.succ_mul, Nat.add_right_comm, mxRun_end (mxRun_col_begin hm hdark (i := 6) (by omega)) hdark]
    exact mxStep_col_six_end c _ _ hpause

/-- R148: tick n of a cycle, while column i is lit. -/
theorem mxRun_col (hm : mxLeavesStart m = true) {i : Fin 7} (hlo : i.val * (m.snapshot c (clk 0)).colOn ≤ n)
    (hhi : n < (i.val + 1) * (m.snapshot c (clk 0)).colOn) :
    ∃ r, mxRun c clk (n + 1) m = some (mxEmit c ((m.snapshot c (clk 0)).enter (.col i) r)) := by
  rw [Nat.succ_mul] at hhi
  obtain ⟨e, rfl⟩ := Nat.exists_eq_add_of_le hlo
  rw [Nat.add_right_comm]
  exact ⟨_, mxRun_within (mxRun_col_begin hm (by omega) i.isLt) (by omega)⟩

/-- R148: tick n of a cycle, in its pause. -/
theorem mxRun_pause (hm : mxLeavesStart m = true) (hlo : 7 * (m.snapshot c (clk 0)).colOn ≤ n)
    (hhi : n < 7 * (m.snapshot c (clk 0)).colOn + (m.snapshot c (clk 0)).pause) :
    ∃ r, mxRun c clk (n + 1) m = some (mxEmit c ((m.snapshot c (clk 0)).enter .pause r)) := by
  obtain ⟨e, rfl⟩ := Nat.exists_eq_add_of_le hlo
  rw [Nat.add_right_comm]
  exact ⟨_, mxRun_within (mxRun_pause_begin hm (by omega)) (by omega)⟩

/-- Column 6 in its last tick, with no pause to come, is a place START is left from. -/
theorem mxLeavesStart_col_six (c : Config) (hpause : s.pause = 0) :
    mxLeavesStart (mxEmit c (s.enter (.col 6) 1)) = true := by
  simp [mxLeavesStart, mxEmit, Mx.enter, hpause]

/-- R148: when the slots and the pause are over, START is left again; the last tick is the pause's, or column 6's if the
pause is empty. -/
theorem mxRun_cycle_end (hm : mxLeavesStart m = true)
    (hpos : 1 ≤ 7 * (m.snapshot c (clk 0)).colOn + (m.snapshot c (clk 0)).pause) :
    ∃ t, mxRun c clk (7 * (m.snapshot c (clk 0)).colOn + (m.snapshot c (clk 0)).pause) m = some t ∧
      mxLeavesStart t = true := by
  by_cases hpause : (m.snapshot c (clk 0)).pause = 0
  · have hlit : (m.snapshot c (clk 0)).colOn ≠ 0 := by omega
    have hlast := mxRun_last (mxRun_col_begin hm hlit (i := 6) (by omega)) hlit
    rw [show 7 * (m.snapshot c (clk 0)).colOn + (m.snapshot c (clk 0)).pause =
      6 * (m.snapshot c (clk 0)).colOn + 1 + ((m.snapshot c (clk 0)).colOn - 1) by omega]
    exact ⟨_, hlast, mxLeavesStart_col_six c hpause⟩
  · have hlast := mxRun_last (mxRun_pause_begin hm hpause) hpause
    rw [show 7 * (m.snapshot c (clk 0)).colOn + (m.snapshot c (clk 0)).pause =
      7 * (m.snapshot c (clk 0)).colOn + 1 + ((m.snapshot c (clk 0)).pause - 1) by omega]
    exact ⟨_, hlast, rfl⟩

end Sys2Proof.Machine
end

section
/-! PROOFS. O34 to O37: the matrix scanner. -/

namespace Sys2Proof.Machine

/-- Settles O34: the bounds of R140 on each value, and a cycle that is the period less the remainder of the seven slots. -/
theorem pwmTimingSplitsThePeriod : Obligations.PwmTimingSplitsThePeriod := by
  intro rate dim h1 h2 h
  have hprod : periodUs rate * dim ≤ 1000000 * 100 := Nat.mul_le_mul (periodUs_le rate) h
  exact ⟨rfl, periodUs_ge h1 h2, periodUs_le rate, hprod, rfl, rfl, pwmTiming_onTotal_add_pause h,
    pwmTiming_cycle_add_mod h, pwmTiming_cycle_pos h1 h2 h⟩

/-- Settles O35: the lines are those that MX's step emits for the phase it holds, and that phase lasts, so it is not START. -/
theorem matrixLinesFollowThePhase : Obligations.MatrixLinesFollowThePhase := by
  intro c k m t h
  refine ⟨fun hm => mxStep_phase_ne_start hm h, ?_⟩
  obtain ⟨x, _, rfl⟩ := mxStep_some h
  constructor
  · intro i (hphase : x.phase = .col i) j
    obtain ⟨hrow, hcol⟩ := mxEmit_of_col c hphase
    rw [hrow, hcol, getLsbD_driveLines, getLsbD_driveLines, getLsbD_oneColumn]
    exact ⟨by simp only [decide_eq_true_eq], rfl⟩
  · intro (hphase : x.phase = .pause) j
    obtain ⟨hrow, hcol⟩ := mxEmit_of_pause c hphase
    rw [hrow, hcol, getLsbD_driveLines, getLsbD_driveLines, BitVec.getLsbD_zero]
    exact ⟨rfl, rfl⟩

/-- Settles O36: each slot is entered where the one before ends, and counts down from the snapshot's time for it. -/
theorem matrixCycleTimeline : Obligations.MatrixCycleTimeline := by
  intro c clk m hk hm
  obtain ⟨_, _, hdim, _, hrate1, hrate2⟩ := hk
  refine ⟨fun i n hlo hhi => ?_, fun n hlo hhi => ?_, mxRun_cycle_end hm (pwmTiming_cycle_pos hrate1 hrate2 hdim)⟩
  · obtain ⟨r, hrun⟩ := mxRun_col hm hlo hhi
    exact ⟨_, hrun, rfl, mxEmit_of_col c rfl⟩
  · obtain ⟨r, hrun⟩ := mxRun_pause hm hlo hhi
    exact ⟨_, hrun, rfl, mxEmit_of_pause c rfl⟩

/-- The last slot of a cycle at dim 100: column 6 in its last tick, no pause to come. -/
def mxLastSlot : Mx := mxEmit .rc0 { Mx.reset .rc0 with phase := .col 6, rem := 1, colOn := 1428 }

/-- The Clock State at reset, with dim 0 written to the matrix. -/
def clockDim0 : Clock := { Clock.reset .rc0 with regularDim := 0 }

/-- Refutes O37: at the boundary where a cycle with no pause ends and one with no lit column begins, nine advances reach
COL(6) with no ticks, and the tenth would reach PAUSE. -/
theorem not_matrixLeavesAtMostNinePhases : ¬ Obligations.MatrixLeavesAtMostNinePhases := by
  intro h
  obtain ⟨t, ht, _⟩ := h .rc0 clockDim0 mxLastSlot (by decide) (by decide)
  have hnone : settle Mx.rem (mxAdvance .rc0 clockDim0) 9 { mxLastSlot with rem := mxLastSlot.rem - 1 } = none := by
    decide
  exact Option.some_ne_none t (ht.symm.trans hnone)

end Sys2Proof.Machine
end

section
/-! PROOFS. O32: the bits of the data frame (R173), counted from the header's and the groups' own bits. -/

namespace Sys2Proof.Machine

/-- R173: the frame is the header and the four groups in transmission order, the dots bit forced high. -/
theorem dataFrame_eq (c : Config) (k : Clock) : dataFrame c k =
    (msbFirst c.hdr ++ (ceilingGroups c k).toList.flatMap msbFirst).set c.dotsOffset.val true := by
  simp [dataFrame, ceilingGroups]

@[simp] theorem dataFrame_length (c : Config) (k : Clock) : (dataFrame c k).length = 41 := by
  simp [dataFrame]

theorem getElem?_msbFirst {n : Nat} (v : BitVec n) {j : Nat} (h : j < n) :
    (msbFirst v)[j]? = some (v.getLsbD (n - 1 - j)) := by
  simp [msbFirst, h]

/-- Groups of eight bits in a row: bit i of group g stands at 8g + i. -/
theorem getElem?_flatMap_msbFirst (gs : List (BitVec 8)) (g : Nat) {i : Nat} (hi : i < 8) :
    (gs.flatMap msbFirst)[8 * g + i]? = gs[g]?.bind fun v => (msbFirst v)[i]? := by
  induction gs generalizing g with
  | nil => simp
  | cons v gs ih =>
    rw [List.flatMap_cons]
    cases g with
    | zero => rw [List.getElem?_append_left (by simpa using hi), Nat.mul_zero, Nat.zero_add]; rfl
    | succ g =>
      rw [List.getElem?_append_right (by rw [msbFirst_length]; omega), msbFirst_length,
        show 8 * (g + 1) + i - 8 = 8 * g + i by omega, ih]
      rfl

/-- R173: the header's bits, most significant first. -/
theorem getElem?_dataFrame_header (c : Config) (k : Clock) {p : Nat} (hp : p < 9) (hdots : p ≠ c.dotsOffset.val) :
    (dataFrame c k)[p]? = some (c.hdr.getLsbD (8 - p)) := by
  rw [dataFrame_eq, List.getElem?_set_ne hdots.symm, List.getElem?_append_left (by simpa using hp), getElem?_msbFirst _ hp]

/-- R173: the groups' bits, after the nine of the header, most significant first. -/
theorem getElem?_dataFrame_group (c : Config) (k : Clock) (g : Fin 4) {i : Nat} (hi : i < 8)
    (hdots : 9 + 8 * g.val + i ≠ c.dotsOffset.val) :
    (dataFrame c k)[9 + 8 * g.val + i]? = some ((ceilingGroups c k)[g].getLsbD (7 - i)) := by
  rw [dataFrame_eq, List.getElem?_set_ne hdots.symm, List.getElem?_append_right (by rw [msbFirst_length]; omega),
    msbFirst_length, show 9 + 8 * g.val + i - 9 = 8 * g.val + i by omega, getElem?_flatMap_msbFirst _ _ hi]
  simp [getElem?_msbFirst _ hi]

/-- Settles O32: a frame position outside the dots' is a position of the header or of one of the groups. -/
theorem dataFrameLayout : Obligations.DataFrameLayout := by
  intro c k
  have hlen := dataFrame_length c k
  refine ⟨hlen, ?_, fun p => getElem?_dataFrame_header c k, fun g j hdots => ?_⟩
  · rw [dataFrame_eq, List.length_set] at hlen
    rw [dataFrame_eq, List.getElem?_set_self (by rw [hlen]; exact c.dotsOffset.isLt)]
  · rw [getElem?_dataFrame_group c k g (by omega) hdots, show 7 - (7 - j.val) = j.val by omega]

end Sys2Proof.Machine
end

section
/-! SUPPORT. The ceiling serializer beside the shared laws: one equation per phase of `advance()` (R175), SR's step from each
place a phase ends, and the lengths of a transmission. -/

namespace Sys2Proof.Machine

/-! ### R175, phase by phase -/

theorem srAdvance_enter_start (c : Config) (k : Clock) (r : Sr) (d : Nat) :
    srAdvance c k (r.enter .start d) = (r.snapshot c k).enter (.latchLow 0) c.tSettle := rfl

theorem srAdvance_enter_latchLow (c : Config) (k : Clock) (r : Sr) (s : Fin 4) (d : Nat) :
    srAdvance c k (r.enter (.latchLow s) d) = r.enterBit c s 0 := rfl

theorem srAdvance_enter_clkLow (c : Config) (k : Clock) (r : Sr) (s : Fin 4) (i d : Nat) :
    srAdvance c k (r.enter (.clkLow s i) d) = r.enter (.clkHigh s i) c.tRise := rfl

theorem srAdvance_enter_clkHigh_of_lt (c : Config) (k : Clock) (r : Sr) {s : Fin 4} {i : Nat} (h : i + 1 < r.seq[s].length)
    (d : Nat) : srAdvance c k (r.enter (.clkHigh s i) d) = r.enterBit c s (i + 1) := if_pos h

theorem srAdvance_enter_clkHigh_last (c : Config) (k : Clock) (r : Sr) {s : Fin 4} {i : Nat} (h : i + 1 = r.seq[s].length)
    (d : Nat) : srAdvance c k (r.enter (.clkHigh s i) d) = r.enter (.gap s) c.tGap := if_neg h.not_lt

theorem srAdvance_enter_gap_of_lt (c : Config) (k : Clock) (r : Sr) {s s' : Fin 4} (h : s'.val = s.val + 1) (d : Nat) :
    srAdvance c k (r.enter (.gap s) d) = r.enter (.latchLow s') c.tSettle := by
  have hlt : s.val < 3 := by omega
  have hs : s' = ⟨s.val + 1, by omega⟩ := Fin.ext h
  rw [hs]
  exact dif_pos hlt

theorem srAdvance_enter_gap_three (c : Config) (k : Clock) (r : Sr) (d : Nat) :
    srAdvance c k (r.enter (.gap 3) d) = r.enter .idle r.idle := rfl

theorem srAdvance_enter_idle (c : Config) (k : Clock) (r : Sr) (d : Nat) :
    srAdvance c k (r.enter .idle d) = r.enter .start 0 := rfl

/-- START lasts no tick. -/
def Sr.StartIsEmpty (r : Sr) : Prop := r.phase = .start → r.rem = 0

/-- R175: START is entered with no ticks. -/
theorem Sr.startIsEmpty_srAdvance (c : Config) (k : Clock) (r : Sr) : (srAdvance c k r).StartIsEmpty := by
  intro hstart
  cases hp : r.phase with
  | start => simp [srAdvance, hp, Sr.enter] at hstart
  | latchLow s => simp [srAdvance, hp, Sr.enterBit, Sr.enter] at hstart
  | clkLow s i => simp [srAdvance, hp, Sr.enter] at hstart
  | clkHigh s i =>
    simp only [srAdvance, hp] at hstart
    split at hstart <;> cases hstart
  | gap s =>
    simp only [srAdvance, hp] at hstart
    split at hstart <;> cases hstart
  | idle => simp [srAdvance, hp, Sr.enter]

/-- SR steps out of START or out of a phase that lasts, so what it holds after its step is not START. -/
theorem srStep_phase_ne_start {c : Config} {k : Clock} {r t : Sr} (hr : r.Inv c) (h : srStep c k r = some t) :
    t.phase ≠ .start := by
  obtain ⟨hslot, _, _⟩ := hr
  obtain ⟨r', hset, rfl⟩ := srStep_some h
  have hinit : Sr.StartIsEmpty { r with rem := r.rem - 1 } := by
    intro hstart
    have hzero : srSlot c r = 0 := by simp only [srSlot, show r.phase = .start from hstart]
    show r.rem - 1 = 0
    omega
  obtain ⟨_, _, _, hrem, _⟩ := settle_spec hset
  exact fun hstart => hrem (settle_keeps (fun x _ => Sr.startIsEmpty_srAdvance c k x) hinit hset hstart)

/-! ### The lines driven take no part in SR's step -/

theorem srEmit_srAdvance_srEmit (c : Config) (k : Clock) (r : Sr) :
    srEmit (srAdvance c k (srEmit r)) = srEmit (srAdvance c k r) := by
  obtain ⟨phase, rem, seq, _⟩ := r
  cases phase with
  | start => rfl
  | latchLow s => rfl
  | clkLow s i => rfl
  | clkHigh s i =>
    show srEmit (if i + 1 < seq[s].length then _ else _) = srEmit (if i + 1 < seq[s].length then _ else _)
    split <;> rfl
  | gap s =>
    show srEmit (if h : s.val < 3 then _ else _) = srEmit (if h : s.val < 3 then _ else _)
    split <;> rfl
  | idle => rfl

theorem settle_srEmit (c : Config) (k : Clock) (n : Nat) (r : Sr) :
    (settle Sr.rem (srAdvance c k) n (srEmit r)).map srEmit = (settle Sr.rem (srAdvance c k) n r).map srEmit := by
  induction n generalizing r with
  | zero =>
    show Option.map srEmit (if r.rem = 0 then _ else _) = Option.map srEmit (if r.rem = 0 then _ else _)
    split <;> rfl
  | succ n ih =>
    by_cases h0 : r.rem = 0
    · rw [settle_succ n h0, settle_succ n (show (srEmit r).rem = 0 from h0), ← ih, srEmit_srAdvance_srEmit, ih]
    · rw [settle_of_rem _ h0, settle_of_rem _ (show (srEmit r).rem ≠ 0 from h0)]
      rfl

/-- R176: SR's step is the loop from one tick less, then the lines of the phase held. -/
theorem srStep_eq_map (c : Config) (k : Clock) (r : Sr) :
    srStep c k r = (settle Sr.rem (srAdvance c k) settleBound (r.enter r.phase (r.rem - 1))).map srEmit := by
  have henter : { r with rem := r.rem - 1 } = r.enter r.phase (r.rem - 1) := rfl
  unfold srStep
  rw [henter]
  cases settle Sr.rem (srAdvance c k) settleBound (r.enter r.phase (r.rem - 1)) <;> rfl

theorem srStep_srEmit (c : Config) (k : Clock) (r : Sr) : srStep c k (srEmit r) = srStep c k r := by
  rw [srStep_eq_map, srStep_eq_map, ← settle_srEmit c k settleBound (r.enter r.phase (r.rem - 1))]
  rfl

theorem srAlone_srEmit (c : Config) (clk : Nat → Clock) (n : Nat) (r : Sr) :
    srAlone c clk (n + 1) (srEmit r) = srAlone c clk (n + 1) r := by
  rw [Nat.add_comm n 1, srAlone_add, srAlone_add]
  exact congrArg (Option.bind · _) (srStep_srEmit c (clk 0) r)

/-! ### SR's step at the end of a phase -/

/-- A phase without ticks is left (R176). -/
theorem srSettle_enter_empty (c : Config) (k : Clock) (r : Sr) (p : SrPhase) (n : Nat) {d : Nat} (hd : d = 0) :
    settle Sr.rem (srAdvance c k) (n + 1) (r.enter p d) =
      settle Sr.rem (srAdvance c k) n (srAdvance c k (r.enter p d)) := settle_succ n hd

/-- A phase that ends is followed by the next one, if that lasts (R176). -/
theorem srStep_phase_end {c : Config} {k : Clock} {r t : Sr} {p : SrPhase} (hadv : srAdvance c k (r.enter p 0) = t)
    (ht : t.rem ≠ 0) : srStep c k (srEmit (r.enter p 1)) = some (srEmit t) := by
  have hzero : (r.enter p 1).enter (r.enter p 1).phase ((r.enter p 1).rem - 1) = r.enter p 0 := rfl
  rw [srStep_srEmit, srStep_eq_map, hzero, settleBound, srSettle_enter_empty c k r p 9 rfl, hadv, settle_of_rem 9 ht]
  rfl

/-- A boundary that leaves START takes the snapshot and lets the latch fall for sequence 0 (R172, R175). -/
theorem srStep_of_leavesStart {c : Config} {k : Clock} {r : Sr} (hr : srLeavesStart r = true) (hc : c.tSettle ≠ 0) :
    srStep c k r = some (srEmit ((r.snapshot c k).enter (.latchLow 0) c.tSettle)) := by
  simp only [srLeavesStart, Bool.and_eq_true, decide_eq_true_eq] at hr
  obtain ⟨hrem, hphase⟩ := hr
  have hstart : settle Sr.rem (srAdvance c k) 8 (r.enter .start 0) =
      some ((r.snapshot c k).enter (.latchLow 0) c.tSettle) := by
    rw [srSettle_enter_empty c k r _ 7 rfl, srAdvance_enter_start]
    exact settle_of_rem 7 hc
  have hset : settle Sr.rem (srAdvance c k) settleBound (r.enter r.phase (r.rem - 1)) =
      some ((r.snapshot c k).enter (.latchLow 0) c.tSettle) := by
    rw [Nat.sub_eq_zero_of_le hrem, settleBound]
    cases hp : r.phase with
    | start => exact settle_mono (by omega) hstart
    | idle =>
      rw [srSettle_enter_empty c k r _ 9 rfl, srAdvance_enter_idle]
      exact settle_mono (by omega) hstart
    | gap s =>
      simp only [hp, Bool.and_eq_true, decide_eq_true_eq] at hphase
      obtain ⟨hs, hidle⟩ := hphase
      obtain rfl : s = 3 := Fin.ext hs
      rw [srSettle_enter_empty c k r _ 9 rfl, srAdvance_enter_gap_three,
        srSettle_enter_empty c k r _ 8 hidle, srAdvance_enter_idle]
      exact hstart
    | latchLow s => simp [hp] at hphase
    | clkLow s i => simp [hp] at hphase
    | clkHigh s i => simp [hp] at hphase
  rw [srStep_eq_map, hset]
  rfl

/-! ### The lengths of a transmission -/

/-- R6: every wire time is at least one tick. -/
theorem wf_wireTimes {c : Config} (h : c.wf = true) :
    c.tSettle ≠ 0 ∧ c.tClkLow ≠ 0 ∧ c.tRise ≠ 0 ∧ c.tGap ≠ 0 := by
  simp only [Config.wf, Config.wfWire, Bool.and_eq_true, decide_eq_true_eq] at h
  omega

@[simp] theorem cmdSeq_length (c : Config) (i : Fin 3) : (cmdSeq c i).length = 12 := msbFirst_length _

/-- R170: three commands of 12 bits and a frame of 41. -/
theorem transmission_lengths (c : Config) (k : Clock) : (transmission c k).toList.map List.length = [12, 12, 12, 41] := by
  simp [transmission]

/-- R178: the four sequences have 77 bits together. -/
theorem tFrame_eq (c : Config) : tFrame c = 4 * c.tSettle + 77 * (c.tClkLow + c.tRise) + 4 * c.tGap := by
  unfold tFrame tSeq
  ring

theorem tSeq_pos {c : Config} (h : c.wf = true) (n : Nat) : 1 ≤ tSeq c n := by
  obtain ⟨hsettle, -, -, -⟩ := wf_wireTimes h
  unfold tSeq
  omega

theorem tFrame_pos {c : Config} (h : c.wf = true) : 1 ≤ tFrame c := by
  have hpos := tSeq_pos h 41
  unfold tFrame
  omega

/-- R172: the snapshot's idle ticks where the period outlasts the transmission. -/
theorem Sr.snapshot_idle_of_lt {c : Config} {k : Clock} (r : Sr) (h : tFrame c < periodUs k.refreshRate.toNat) :
    (r.snapshot c k).idle = periodUs k.refreshRate.toNat - tFrame c := if_pos h

theorem Sr.snapshot_idle_of_le {c : Config} {k : Clock} (r : Sr) (h : periodUs k.refreshRate.toNat ≤ tFrame c) :
    (r.snapshot c k).idle = 0 := if_neg (Nat.not_lt.mpr h)

end Sys2Proof.Machine
end

section
/-! PROOFS. O40: the lines are those that SR's step emits for the phase it holds. -/

namespace Sys2Proof.Machine

/-- Settles O40: the levels of R177 for the phase held, and that phase lasts, so it is not START. -/
theorem serialLinesFollowThePhase : Obligations.SerialLinesFollowThePhase := by
  refine ⟨fun _ => ⟨rfl, rfl, rfl⟩, fun c k r t h => ⟨fun hr => srStep_phase_ne_start hr h, ?_⟩⟩
  obtain ⟨x, _, rfl⟩ := srStep_some h
  have hlevels : ∀ p, (srEmit x).phase = p →
      (srEmit x).latchLine = srLatchLevel p ∧ (srEmit x).clkLine = srClkLevel p := by
    rintro p rfl
    exact ⟨rfl, rfl⟩
  exact ⟨rfl, fun s => hlevels (.latchLow s), fun s i => hlevels (.clkLow s i), fun s i => hlevels (.clkHigh s i),
    fun s => hlevels (.gap s), hlevels .idle⟩

end Sys2Proof.Machine
end

section
/-! SUPPORT. Stretches of a run that do not depend on the Clock State: one phase, one bit, one sequence, one transmission,
each with what SR holds, what the receiver of R183 has seen, and the phases in between. -/

namespace Sys2Proof.Machine

/-! ### Stretches of a run -/

/-- Whatever the host writes, n boundaries lead SR and its receiver from x to y, and SR's phase meets P at both ends and at
every boundary in between. -/
def SrLeads (c : Config) (P : SrPhase → Prop) (n : Nat) (x y : Sr × Receiver) : Prop :=
  ∀ clk : Nat → Clock, srRun c clk n x = some y ∧ ∀ j ≤ n, ∃ z, srRun c clk j x = some z ∧ P z.1.phase

section
variable {c : Config} {P Q : SrPhase → Prop} {m n : Nat} {x y z : Sr × Receiver}

theorem SrLeads.mono (hPQ : ∀ p, P p → Q p) (h : SrLeads c P n x y) : SrLeads c Q n x y := by
  intro clk
  obtain ⟨hrun, hphase⟩ := h clk
  refine ⟨hrun, fun j hj => ?_⟩
  obtain ⟨z, hz, hp⟩ := hphase j hj
  exact ⟨z, hz, hPQ _ hp⟩

theorem SrLeads.trans (h : SrLeads c P m x y) (h' : SrLeads c P n y z) : SrLeads c P (m + n) x z := by
  intro clk
  obtain ⟨hrun, hphase⟩ := h clk
  obtain ⟨hrun', hphase'⟩ := h' fun j => clk (m + j)
  refine ⟨by rw [srRun_add, hrun]; exact hrun', fun j hj => ?_⟩
  by_cases hjm : j ≤ m
  · exact hphase j hjm
  · obtain ⟨e, rfl⟩ := Nat.exists_eq_add_of_le (Nat.le_of_not_le hjm)
    rw [srRun_add, hrun]
    exact hphase' e (by omega)

/-- A watched run, nobody watching (R183). -/
theorem srAlone_of_srRun {clk : Nat → Clock} (h : srRun c clk n x = some y) : srAlone c clk n x.1 = some y.1 := by
  rw [← srRun_map_fst, h]
  rfl

/-- A stretch alone, nobody watching. -/
theorem SrLeads.alone (h : SrLeads c P n x y) (clk : Nat → Clock) :
    srAlone c clk n x.1 = some y.1 ∧ ∀ j ≤ n, ∃ t, srAlone c clk j x.1 = some t ∧ P t.phase := by
  obtain ⟨hrun, hphase⟩ := h clk
  refine ⟨srAlone_of_srRun hrun, fun j hj => ?_⟩
  obtain ⟨z, hz, hp⟩ := hphase j hj
  exact ⟨z.1, srAlone_of_srRun hz, hp⟩

end

/-! ### The receiver -/

/-- A receiver that has last seen the lines of phase p (R177, R183). -/
def Receiver.seen (p : SrPhase) (shift : List Bool) (words : List (List Bool)) : Receiver :=
  ⟨srLatchLevel p, srClkLevel p, shift, words⟩

/-! ### One phase -/

section
variable {c : Config} {P : SrPhase → Prop} {r t : Sr} {p : SrPhase} {d : Nat} {sh : List Bool} {ws : List (List Bool)}

/-- A phase entered with d ticks is in its last one d - 1 boundaries later, and its lines have not changed. -/
theorem srLeads_last (hd : d ≠ 0) (hp : P p) :
    SrLeads c P (d - 1) (srEmit (r.enter p d), .seen p sh ws) (srEmit (r.enter p 1), .seen p sh ws) := by
  have hcount : ∀ (clk : Nat → Clock) (j : Nat), j ≤ d - 1 →
      srRun c clk j (srEmit (r.enter p d), .seen p sh ws) = some (srEmit (r.enter p (d - j)), .seen p sh ws) :=
    fun clk j hj => srRun_countdown c clk (r.enter p d) rfl rfl (show j < d by omega)
  refine fun clk => ⟨?_, fun j hj => ⟨_, hcount clk j hj, hp⟩⟩
  rw [hcount clk _ le_rfl, show d - (d - 1) = 1 by omega]

/-- One boundary, between two phases of P. -/
theorem srLeads_one {x : Sr × Receiver} (hstep : ∀ k, srStep c k x.1 = some t) (hx : P x.1.phase) (ht : P t.phase) :
    SrLeads c P 1 x (t, x.2.watchSr t) := by
  intro clk
  have hrun : srRun c clk 1 x = some (t, x.2.watchSr t) := by simp only [srRun, hstep]
  refine ⟨hrun, fun j hj => ?_⟩
  obtain rfl | rfl : j = 0 ∨ j = 1 := by omega
  · exact ⟨x, rfl, hx⟩
  · exact ⟨_, hrun, ht⟩

/-- A phase entered with d ticks gives way to the next one, if that lasts, d boundaries later. -/
theorem srLeads_phase (hd : d ≠ 0) (hadv : ∀ k, srAdvance c k (r.enter p 0) = t) (hrem : t.rem ≠ 0) (hp : P p)
    (ht : P t.phase) : SrLeads c P d (srEmit (r.enter p d), .seen p sh ws)
      (srEmit t, (Receiver.seen p sh ws).watchSr (srEmit t)) := by
  have hone := srLeads_one (x := (srEmit (r.enter p 1), .seen p sh ws)) (fun k => srStep_phase_end (hadv k) hrem) hp ht
  have hall := (srLeads_last (c := c) (r := r) (sh := sh) (ws := ws) hd hp).trans hone
  rwa [Nat.sub_add_cancel (Nat.pos_of_ne_zero hd)] at hall

end

/-! ### One bit -/

/-- SR with the level b put on CEIL_DATA. -/
def Sr.drive (r : Sr) (b : Bool) : Sr := { r with data := b }

/-- The phase belongs to sequence s (R174). -/
def InSeq (s : Fin 4) (p : SrPhase) : Prop := srSeqOf p = some s

/-- The phase belongs to some sequence. -/
def InSomeSeq (p : SrPhase) : Prop := (srSeqOf p).isSome = true

theorem InSeq.inSomeSeq {s : Fin 4} {p : SrPhase} (h : InSeq s p) : InSomeSeq p := Option.isSome_iff_exists.mpr ⟨s, h⟩

/-- The bits shifted before bit i + 1, in terms of those before bit i. -/
theorem take_append_bit {r : Sr} {s : Fin 4} {i : Nat} (h : i < r.seq[s].length) :
    r.seq[s].take i ++ [r.bit s i] = r.seq[s].take (i + 1) := by
  have hbit : r.bit s i = r.seq[s][i] := by
    rw [Sr.bit, List.getD_eq_getElem _ _ h]
  rw [hbit, List.take_append_getElem h]

section
variable {c : Config} (hc : c.wf = true) (r : Sr) {s : Fin 4} {i : Nat} {sh : List Bool} {ws : List (List Bool)}
include hc

/-- The latch falls, and T_SETTLE ticks later the first bit is driven: nothing is shifted. -/
theorem srLeads_latchLow :
    SrLeads c (InSeq s) c.tSettle (srEmit (r.enter (.latchLow s) c.tSettle), .seen (.latchLow s) sh ws)
      (srEmit (r.enterBit c s 0), .seen (.clkLow s 0) sh ws) := by
  obtain ⟨hsettle, hlow, -, -⟩ := wf_wireTimes hc
  exact srLeads_phase hsettle (fun k => srAdvance_enter_latchLow c k r s 0) hlow rfl rfl

/-- The clock rises T_CLK_LOW ticks after a bit is driven: the receiver shifts the bit. -/
theorem srLeads_clkLow :
    SrLeads c (InSeq s) c.tClkLow (srEmit (r.enterBit c s i), .seen (.clkLow s i) sh ws)
      (srEmit ((r.drive (r.bit s i)).enter (.clkHigh s i) c.tRise), .seen (.clkHigh s i) (sh ++ [r.bit s i]) ws) := by
  obtain ⟨-, hlow, hrise, -⟩ := wf_wireTimes hc
  exact srLeads_phase hlow (fun k => srAdvance_enter_clkLow c k (r.drive (r.bit s i)) s i 0) hrise rfl rfl

/-- A bit that is not the last: the next one is driven T_CLK_LOW + T_RISE ticks later. -/
theorem srLeads_bit (hi : i + 1 < r.seq[s].length) :
    SrLeads c (InSeq s) (c.tClkLow + c.tRise) (srEmit (r.enterBit c s i), .seen (.clkLow s i) (r.seq[s].take i) ws)
      (srEmit (r.enterBit c s (i + 1)), .seen (.clkLow s (i + 1)) (r.seq[s].take (i + 1)) ws) := by
  obtain ⟨-, hlow, hrise, -⟩ := wf_wireTimes hc
  rw [← take_append_bit (by omega)]
  exact (srLeads_clkLow hc r).trans (srLeads_phase hrise
    (fun k => srAdvance_enter_clkHigh_of_lt c k (r.drive (r.bit s i)) hi 0) hlow rfl rfl)

/-- The last bit: T_CLK_LOW + T_RISE ticks later the latch rises, and the receiver commits the whole sequence. -/
theorem srLeads_lastBit (hi : i + 1 = r.seq[s].length) :
    SrLeads c (InSeq s) (c.tClkLow + c.tRise) (srEmit (r.enterBit c s i), .seen (.clkLow s i) (r.seq[s].take i) ws)
      (srEmit ((r.drive (r.bit s i)).enter (.gap s) c.tGap), .seen (.gap s) [] (ws ++ [r.seq[s]])) := by
  obtain ⟨-, -, hrise, hgap⟩ := wf_wireTimes hc
  have hlow := srLeads_clkLow hc r (s := s) (i := i) (sh := r.seq[s].take i) (ws := ws)
  rw [take_append_bit (by omega), List.take_of_length_le (i := i + 1) (by omega)] at hlow
  exact hlow.trans (srLeads_phase hrise
    (fun k => srAdvance_enter_clkHigh_last c k (r.drive (r.bit s i)) hi 0) hgap rfl rfl)

/-! ### One sequence -/

/-- Bit i is driven i bit times after the first, with the bits before it shifted. -/
theorem srLeads_bits (hi : i < r.seq[s].length) :
    SrLeads c (InSeq s) (c.tSettle + i * (c.tClkLow + c.tRise))
      (srEmit (r.enter (.latchLow s) c.tSettle), .seen (.latchLow s) [] ws)
      (srEmit (r.enterBit c s i), .seen (.clkLow s i) (r.seq[s].take i) ws) := by
  induction i with
  | zero =>
    rw [Nat.zero_mul]
    exact srLeads_latchLow hc r
  | succ i ih =>
    rw [Nat.succ_mul, ← Nat.add_assoc]
    exact (ih (by omega)).trans (srLeads_bit hc r hi)

/-- R178: a sequence w ends T_SEQ(n) - 1 ticks after its first, in the last tick of its gap and committed. -/
theorem srLeads_sequence {w : List Bool} (hw : r.seq[s] = w) (hn : 1 ≤ w.length) : ∃ b,
    SrLeads c (InSeq s) (tSeq c w.length - 1) (srEmit (r.enter (.latchLow s) c.tSettle), .seen (.latchLow s) [] ws)
      (srEmit ((r.drive b).enter (.gap s) 1), .seen (.gap s) [] (ws ++ [w])) := by
  subst hw
  obtain ⟨-, -, -, hgap⟩ := wf_wireTimes hc
  obtain ⟨i, hi⟩ : ∃ i, r.seq[s].length = i + 1 := ⟨r.seq[s].length - 1, by omega⟩
  have hlen : tSeq c r.seq[s].length - 1 =
      c.tSettle + i * (c.tClkLow + c.tRise) + (c.tClkLow + c.tRise) + (c.tGap - 1) := by
    rw [hi, tSeq, Nat.succ_mul]
    omega
  rw [hlen]
  exact ⟨_, ((srLeads_bits hc r (by omega)).trans (srLeads_lastBit hc r hi.symm)).trans
    (srLeads_last hgap rfl)⟩

/-! ### The four sequences -/

/-- R175: the latch falls for the next sequence T_SEQ(n) ticks after it fell for this one. -/
theorem srLeads_nextSequence {s' : Fin 4} (hs : s'.val = s.val + 1) {w : List Bool} (hw : r.seq[s] = w)
    (hn : 1 ≤ w.length) : ∃ b,
    SrLeads c InSomeSeq (tSeq c w.length) (srEmit (r.enter (.latchLow s) c.tSettle), .seen (.latchLow s) [] ws)
      (srEmit ((r.drive b).enter (.latchLow s') c.tSettle), .seen (.latchLow s') [] (ws ++ [w])) := by
  obtain ⟨hsettle, -, -, -⟩ := wf_wireTimes hc
  obtain ⟨b, hb⟩ := srLeads_sequence hc r (ws := ws) hw hn
  have hnext := srLeads_one (P := InSomeSeq) (x := (srEmit ((r.drive b).enter (.gap s) 1), .seen (.gap s) [] (ws ++ [w])))
    (fun k => srStep_phase_end (srAdvance_enter_gap_of_lt c k (r.drive b) hs 0) hsettle) rfl rfl
  have hall := (hb.mono fun _ => InSeq.inSomeSeq).trans hnext
  rw [Nat.sub_add_cancel (tSeq_pos hc w.length)] at hall
  exact ⟨b, hall⟩

/-- R178, R183: a transmission ends T_FRAME - 1 ticks after its first, in the last tick of the last gap, and the receiver has
committed the four sequences of the snapshot in order. -/
theorem srLeads_transmission (k : Clock) : ∃ b,
    SrLeads c InSomeSeq (tFrame c - 1)
      (srEmit ((r.snapshot c k).enter (.latchLow 0) c.tSettle), .seen (.latchLow 0) [] ws)
      (srEmit (((r.snapshot c k).drive b).enter (.gap 3) 1),
        .seen (.gap 3) [] (ws ++ [cmdSeq c 0, cmdSeq c 1, cmdSeq c 2, dataFrame c k])) := by
  obtain ⟨b0, h0⟩ := srLeads_nextSequence hc (r.snapshot c k) (s := 0) (s' := 1) (ws := ws) rfl
    (w := cmdSeq c 0) rfl (by simp)
  obtain ⟨b1, h1⟩ := srLeads_nextSequence hc ((r.snapshot c k).drive b0) (s := 1) (s' := 2)
    (ws := ws ++ [cmdSeq c 0]) rfl (w := cmdSeq c 1) rfl (by simp)
  obtain ⟨b2, h2⟩ := srLeads_nextSequence hc ((r.snapshot c k).drive b1) (s := 2) (s' := 3)
    (ws := ws ++ [cmdSeq c 0] ++ [cmdSeq c 1]) rfl (w := cmdSeq c 2) rfl (by simp)
  obtain ⟨b3, h3⟩ := srLeads_sequence hc ((r.snapshot c k).drive b2) (s := 3)
    (ws := ws ++ [cmdSeq c 0] ++ [cmdSeq c 1] ++ [cmdSeq c 2]) (w := dataFrame c k) rfl (by simp)
  have hall := ((h0.trans h1).trans h2).trans (h3.mono fun _ => InSeq.inSomeSeq)
  have hlen : tSeq c 12 + tSeq c 12 + tSeq c 12 + (tSeq c 41 - 1) = tFrame c - 1 := by
    have hpos := tSeq_pos hc 41
    unfold tFrame
    omega
  simp only [cmdSeq_length, dataFrame_length, hlen, List.append_assoc, List.cons_append, List.nil_append] at hall
  exact ⟨b3, hall⟩

/-! ### A whole transmission, from the boundary that leaves START -/

/-- R178, R183: the boundary that leaves START lets the latch fall for sequence 0 of the snapshot taken there (R172), and from
then on SR is in a sequence for T_FRAME ticks; in the last of them the receiver has the four sequences. -/
theorem srRun_transmission (clk : Nat → Clock) (hr : srLeavesStart r = true) : ∃ b,
    srRun c clk (tFrame c) (r, ⟨true, true, [], ws⟩) =
      some (srEmit (((r.snapshot c (clk 0)).drive b).enter (.gap 3) 1),
        .seen (.gap 3) [] (ws ++ [cmdSeq c 0, cmdSeq c 1, cmdSeq c 2, dataFrame c (clk 0)])) ∧
    ∀ n < tFrame c, ∃ z, srRun c clk (n + 1) (r, ⟨true, true, [], ws⟩) = some z ∧ InSomeSeq z.1.phase := by
  obtain ⟨hsettle, -, -, -⟩ := wf_wireTimes hc
  have hfirst : srRun c clk 1 (r, ⟨true, true, [], ws⟩) =
      some (srEmit ((r.snapshot c (clk 0)).enter (.latchLow 0) c.tSettle), .seen (.latchLow 0) [] ws) := by
    simp only [srRun, srStep_of_leavesStart hr hsettle]
    rfl
  have hlater : ∀ n, srRun c clk (1 + n) (r, ⟨true, true, [], ws⟩) = srRun c (fun j => clk (1 + j)) n
      (srEmit ((r.snapshot c (clk 0)).enter (.latchLow 0) c.tSettle), .seen (.latchLow 0) [] ws) := by
    intro n
    rw [srRun_add, hfirst]
    rfl
  obtain ⟨b, hb⟩ := srLeads_transmission hc r (ws := ws) (clk 0)
  obtain ⟨hend, hwithin⟩ := hb fun j => clk (1 + j)
  refine ⟨b, ?_, fun n hn => ?_⟩
  · rw [← Nat.add_sub_of_le (tFrame_pos hc), hlater]
    exact hend
  · rw [Nat.add_comm, hlater]
    exact hwithin n (by omega)

/-- All that follows a gap (R175): the next sequence; the idle ticks left; or, with none, the next transmission. -/
theorem srStep_gap_last (k : Clock) (s : Fin 4) : ∃ t, srStep c k (srEmit (r.enter (.gap s) 1)) = some t ∧
    (∀ s' : Fin 4, s'.val = s.val + 1 → t.phase = .latchLow s' ∧ t.rem = c.tSettle) ∧
    (s.val = 3 → 1 ≤ r.idle → t.phase = .idle ∧ t.rem = r.idle) ∧
    (s.val = 3 → r.idle = 0 → t.phase = .latchLow 0 ∧ t.rem = c.tSettle) := by
  obtain ⟨hsettle, -, -, -⟩ := wf_wireTimes hc
  by_cases hs : s.val < 3
  · have hadv := srAdvance_enter_gap_of_lt c k r (s := s) (s' := ⟨s.val + 1, by omega⟩) rfl 0
    refine ⟨_, srStep_phase_end hadv hsettle, fun s' hs' => ⟨?_, rfl⟩, by omega, by omega⟩
    exact congrArg SrPhase.latchLow (Fin.ext hs'.symm)
  · obtain rfl : s = 3 := by omega
    by_cases hidle : r.idle = 0
    · have hleaves : srLeavesStart (r.enter (.gap 3) 1) = true := by simp [srLeavesStart, Sr.enter, hidle]
      rw [srStep_srEmit]
      exact ⟨_, srStep_of_leavesStart hleaves hsettle, by omega, by omega, fun _ _ => ⟨rfl, rfl⟩⟩
    · exact ⟨_, srStep_phase_end (srAdvance_enter_gap_three c k r 0) hidle, by omega, fun _ _ => ⟨rfl, rfl⟩, by omega⟩

end
end Sys2Proof.Machine
end

section
/-! PROOFS. O41 and O39: what a transmission sends, and how long it takes. -/

namespace Sys2Proof.Machine

/-- Settles O41: the boundary that leaves START takes the snapshot, and the stretch that follows sends its four sequences. -/
theorem receiverGetsTheTransmission : Obligations.ReceiverGetsTheTransmission := by
  intro c clk r ws hc hr
  obtain ⟨b, hrun, -⟩ := srRun_transmission hc r (ws := ws) clk hr
  exact ⟨_, _, hrun, rfl, rfl, rfl, rfl⟩

/-- R178: from the tick in which the latch falls, SR alone is in the sequence for T_SEQ(n) ticks, and the step after them is
the one that ends its gap. -/
theorem srAlone_sequence {c : Config} (hc : c.wf = true) (clk : Nat → Clock) {r : Sr} {s : Fin 4}
    (hphase : r.phase = .latchLow s) (hrem : r.rem = c.tSettle) (hn : 1 ≤ r.seq[s].length) :
    (∀ j, j < tSeq c r.seq[s].length → ∃ t, srAlone c clk j r = some t ∧ InSeq s t.phase) ∧
    ∃ b, srAlone c clk (tSeq c r.seq[s].length) r =
      srStep c (clk (tSeq c r.seq[s].length - 1)) (srEmit ((r.drive b).enter (.gap s) 1)) := by
  have henter : r.enter (.latchLow s) c.tSettle = r := by rw [← hphase, ← hrem]; rfl
  have hpos := tSeq_pos hc r.seq[s].length
  obtain ⟨b, hb⟩ := srLeads_sequence hc r (ws := []) rfl hn
  rw [henter] at hb
  obtain ⟨hend, hwithin⟩ := hb.alone clk
  refine ⟨fun j hj => ?_, b, ?_⟩
  · cases j with
    | zero => exact ⟨r, rfl, congrArg srSeqOf hphase⟩
    | succ j =>
      rw [← srAlone_srEmit]
      exact hwithin (j + 1) (by omega)
  · obtain ⟨n, hn⟩ : ∃ n, tSeq c r.seq[s].length = n + 1 := ⟨_, (Nat.sub_add_cancel hpos).symm⟩
    rw [hn, Nat.add_sub_cancel] at hend ⊢
    rw [← srAlone_srEmit, srAlone, hend]

/-- Settles O39: the stretches of a sequence and of a transmission, each followed by the step that ends the last gap. -/
theorem transmissionLength : Obligations.TransmissionLength := by
  refine ⟨fun c clk r s hc hphase hrem hn => ?_, fun c clk r hc hr => ?_, fun _ _ => rfl, fun c => ⟨rfl, tFrame_eq c⟩,
    by decide⟩
  · obtain ⟨hwithin, b, hend⟩ := srAlone_sequence hc clk hphase hrem hn
    rw [hend]
    exact ⟨hwithin, srStep_gap_last hc (r.drive b) _ s⟩
  · obtain ⟨b, hend, hwithin⟩ := srRun_transmission hc r (ws := []) clk hr
    obtain ⟨t, ht, -, hidle, hnext⟩ := srStep_gap_last hc ((r.snapshot c (clk 0)).drive b) (clk (tFrame c)) 3
    have hlast := srAlone_of_srRun hend
    obtain ⟨hsettle, -, -, -⟩ := wf_wireTimes hc
    have hfirst : srAlone c clk 1 r = some _ := srStep_of_leavesStart hr hsettle
    refine ⟨⟨_, hfirst, rfl, rfl, transmission_lengths c (clk 0)⟩, fun n hn => ?_, t, ?_,
      fun hlt => ?_, fun hle => hnext rfl (Sr.snapshot_idle_of_le r hle)⟩
    · obtain ⟨z, hz, hseq⟩ := hwithin n hn
      exact ⟨z.1, srAlone_of_srRun hz, hseq⟩
    · rw [srAlone, hlast]
      exact ht
    · have hleft := Sr.snapshot_idle_of_lt r hlt
      have hpos : 1 ≤ (r.snapshot c (clk 0)).idle := by
        rw [hleft]
        exact Nat.sub_pos_of_lt hlt
      obtain ⟨hphase, hrem⟩ := hidle rfl hpos
      exact ⟨hphase, hrem.trans hleft⟩

end Sys2Proof.Machine
end

section
/-! SUPPORT. One tick as the button decoder sees it: the rule of the phase held (R210), branch by branch, and what each branch
leaves of the registers BD writes, of the pending edges and of BD's own state. -/

namespace Sys2Proof.Machine

section
variable {s : State}

/-! ### The rule of each phase (R210) -/

theorem bdPhaseStep_of_idle (h : s.bd.phase = .idle) : bdPhaseStep s = idleCheck s := by rw [bdPhaseStep, h]
theorem bdPhaseStep_of_debounce (h : s.bd.phase = .debounce) : bdPhaseStep s = debounceStep s := by rw [bdPhaseStep, h]
theorem bdPhaseStep_of_dis1 (h : s.bd.phase = .dis1) : bdPhaseStep s = dischargeStep s .meas1 := by rw [bdPhaseStep, h]
theorem bdPhaseStep_of_meas1 (h : s.bd.phase = .meas1) : bdPhaseStep s = measureStep1 s := by rw [bdPhaseStep, h]
theorem bdPhaseStep_of_dis2 (h : s.bd.phase = .dis2) : bdPhaseStep s = dischargeStep s .meas2 := by rw [bdPhaseStep, h]
theorem bdPhaseStep_of_meas2 (h : s.bd.phase = .meas2) : bdPhaseStep s = measureStep2 s := by rw [bdPhaseStep, h]
theorem bdPhaseStep_of_hold (h : s.bd.phase = .hold) : bdPhaseStep s = holdStep s := by rw [bdPhaseStep, h]
theorem bdPhaseStep_of_disf (h : s.bd.phase = .disf) : bdPhaseStep s = finalDischargeStep s := by rw [bdPhaseStep, h]

/-! ### The branches of each rule -/

theorem debounceStep_of_wait (h : 2 ≤ s.bd.rem) : debounceStep s = s.setBd { s.bd with rem := s.bd.rem - 1 } :=
  if_neg (by omega)

theorem debounceStep_of_high (h : s.bd.rem ≤ 1) (hl : s.level s.bd.line = true) :
    debounceStep s = s.setBd { s.bd with s1 := none, s2 := none, phase := .dis1, rem := s.cfg.tDischarge } := by
  rw [debounceStep, if_pos (by omega), if_pos hl]

theorem debounceStep_of_low (h : s.bd.rem ≤ 1) (hl : s.level s.bd.line = false) :
    debounceStep s = idleCheck (s.setBd { s.bd with phase := .idle, rem := s.bd.rem - 1 }) := by
  rw [debounceStep, if_pos (by omega), if_neg (Bool.eq_false_iff.mp hl)]
  rfl

theorem dischargeStep_of_wait (h : 2 ≤ s.bd.rem) (next : BdPhase) :
    dischargeStep s next = s.setBd { s.bd with rem := s.bd.rem - 1 } :=
  if_neg (by omega)

theorem dischargeStep_of_end (h : s.bd.rem ≤ 1) (next : BdPhase) :
    dischargeStep s next = s.setBd { s.bd with rem := s.bd.rem - 1, phase := next, cnt := 0 } :=
  if_pos (by omega)

theorem finalDischargeStep_of_wait (h : 2 ≤ s.bd.rem) :
    finalDischargeStep s = s.setBd { s.bd with rem := s.bd.rem - 1 } :=
  if_neg (by omega)

theorem finalDischargeStep_of_end (h : s.bd.rem ≤ 1) :
    finalDischargeStep s = idleCheck (s.setBd { s.bd with phase := .idle, rem := s.bd.rem - 1 }) :=
  if_pos (by omega)

theorem holdStep_of_low (hl : s.level s.bd.line = false) : holdStep s = endHold s false := by
  rw [holdStep, hl]
  rfl

theorem holdStep_of_cap (hl : s.level s.bd.line = true) (h : s.bd.cnt + 1 = s.cfg.tHoldMax) : holdStep s = endHold s true := by
  rw [holdStep, hl, if_pos h]
  rfl

theorem holdStep_of_held (hl : s.level s.bd.line = true) (h : s.bd.cnt + 1 ≠ s.cfg.tHoldMax) :
    holdStep s = s.setBd { s.bd with cnt := s.bd.cnt + 1 } := by
  rw [holdStep, hl, if_neg h]
  rfl

/-- R217: a poll without an outcome counts and the pass goes on, in either pass. -/
theorem bdPhaseStep_of_poll_none (hpass : s.bd.phase = .meas1 ∨ s.bd.phase = .meas2)
    (h : pollSample s.cfg (s.bd.cnt + 1) (s.level s.bd.line) = none) :
    bdPhaseStep s = s.setBd { s.bd with cnt := s.bd.cnt + 1 } := by
  rcases hpass with hp | hp
  · rw [bdPhaseStep_of_meas1 hp, measureStep1, h]
  · rw [bdPhaseStep_of_meas2 hp, measureStep2, h]

/-- R217: the end of the first of two passes. -/
theorem measureStep1_of_first {v : Option Nat} (h : pollSample s.cfg (s.bd.cnt + 1) (s.level s.bd.line) = some v)
    (htwo : s.cfg.doubleSample = true) :
    measureStep1 s = s.setBd { s.bd with cnt := s.bd.cnt + 1, s1 := v, phase := .dis2, rem := s.cfg.tDischarge } := by
  rw [measureStep1, h]
  exact if_pos htwo

theorem inLastPass_cases (h : inLastPass s = true) :
    s.bd.phase = .meas2 ∨ (s.bd.phase = .meas1 ∧ s.cfg.doubleSample = false) := by
  simpa [inLastPass] using h

/-- R217, R220: the last pass ends in a classification of what R219 makes of the passes. -/
theorem bdPhaseStep_of_lastPass {v : Option Nat} (hlast : inLastPass s = true)
    (h : pollSample s.cfg (s.bd.cnt + 1) (s.level s.bd.line) = some v) :
    ∃ b : Bd, b.line = s.bd.line ∧
      bdPhaseStep s = enterHold (classifySample (s.setBd b)
        (if s.bd.phase = .meas2 then combineSamples s.cfg s.bd.s1 v else v)) := by
  rcases inLastPass_cases hlast with hp | ⟨hp, hone⟩
  · refine ⟨{ s.bd with cnt := s.bd.cnt + 1, s2 := v }, rfl, ?_⟩
    rw [bdPhaseStep_of_meas2 hp, measureStep2, h, if_pos hp]
    rfl
  · refine ⟨{ s.bd with cnt := s.bd.cnt + 1, s1 := v }, rfl, ?_⟩
    have hone' : ¬ s.cfg.doubleSample = true := Bool.eq_false_iff.mp hone
    have hx : combineSamples s.cfg v s.bd.s2 = v := if_neg hone'
    rw [bdPhaseStep_of_meas1 hp, measureStep1, h, if_neg (by simp [hp])]
    refine (if_neg hone').trans ?_
    rw [classify, State.setBd_cfg, State.setBd_bd, hx]

end

/-! ### The idle check and the classification -/

theorem bdRegsKept_idleCheck (s : State) : bdRegsKept s (idleCheck s) := by
  rcases idleCheck_cases s with ⟨_, h⟩ | ⟨_, _, h⟩ | ⟨_, _, h⟩ <;> rw [h] <;> exact ⟨rfl, rfl, rfl, rfl⟩

theorem idleCheck_samples (s : State) : (idleCheck s).bd.s1 = s.bd.s1 ∧ (idleCheck s).bd.s2 = s.bd.s2 := by
  rcases idleCheck_cases s with ⟨_, h⟩ | ⟨_, _, h⟩ | ⟨_, _, h⟩ <;> rw [h] <;> exact ⟨rfl, rfl⟩

theorem idleCheck_phase_ne_hold {s : State} (h : s.bd.phase ≠ .hold) : (idleCheck s).bd.phase ≠ .hold := by
  rcases idleCheck_cases s with ⟨_, hs⟩ | ⟨_, _, hs⟩ | ⟨_, _, hs⟩ <;> rw [hs]
  · exact BdPhase.noConfusion
  · exact BdPhase.noConfusion
  · exact h

@[simp] theorem classifySample_bd (s : State) (x : Option Nat) : (classifySample s x).bd = s.bd := by
  rcases classifySample_cases s x with ⟨_, h⟩ | ⟨v, _, _, h⟩ | ⟨v, b, _, _, h⟩ <;> rw [h]
  · rfl
  · rfl
  · exact State.pushEvent_bd _ b _

@[simp] theorem classifySample_edge (s : State) (x : Option Nat) (l : Line) : (classifySample s x).edge l = s.edge l := by
  rcases classifySample_cases s x with ⟨_, h⟩ | ⟨v, _, _, h⟩ | ⟨v, b, _, _, h⟩ <;> rw [h]
  · cases l <;> rfl
  · cases l <;> rfl
  · exact (State.pushEvent_edge _ b _ l).trans (by cases l <;> rfl)

@[simp] theorem classifySample_pressDuration (s : State) (x : Option Nat) :
    (classifySample s x).pressDuration = s.pressDuration := by
  rcases classifySample_cases s x with ⟨_, h⟩ | ⟨v, _, _, h⟩ | ⟨v, b, _, _, h⟩ <;> rw [h]
  · rfl
  · rfl
  · exact State.pushEvent_pressDuration _ b _

theorem bdRegsKept_pushEvent_congr {s u : State} (h : bdRegsKept s u) (hc : u.cfg = s.cfg) (b : Button) (l : Line) :
    bdRegsKept (s.pushEvent b l) (u.pushEvent b l) := by
  obtain ⟨hf, hst, hls, hpd⟩ := h
  unfold State.pushEvent
  rw [hc, hf]
  split
  · exact ⟨rfl, hst, hls, hpd⟩
  · exact ⟨hf, by simp [hst], hls, hpd⟩

@[simp] theorem State.pushEvent_lastSample (s : State) (b : Button) (l : Line) :
    (s.pushEvent b l).lastSample = s.lastSample := by
  rcases s.pushEvent_cases b l with ⟨_, h⟩ | ⟨_, h⟩ <;> rw [h] <;> rfl

/-- A classification reads the configuration, the line and the registers it writes, and nothing else (R222). -/
theorem bdRegsKept_classifySample_congr {s u : State} (h : bdRegsKept s u) (hc : u.cfg = s.cfg)
    (hl : u.bd.line = s.bd.line) (x : Option Nat) : bdRegsKept (classifySample s x) (classifySample u x) := by
  obtain ⟨hf, hst, hls, hpd⟩ := h
  cases x with
  | none => exact ⟨hf, by simp [classifySample, hst], by simp [classifySample, hl], hpd⟩
  | some v =>
    simp only [classifySample, hc, hl]
    cases lookupButton s.cfg s.bd.line v (s.cfg.table s.bd.line) with
    | none => exact ⟨hf, by simp [hst], rfl, hpd⟩
    | some b =>
      have hrec (w : Data) : bdRegsKept (s.setLastSample w) (u.setLastSample w) := ⟨hf, hst, rfl, hpd⟩
      exact bdRegsKept_pushEvent_congr (hrec (packLastSample true s.bd.line true v)) hc b s.bd.line

/-! ### What a tick shows of BD's step -/

@[simp] theorem State.nextBoundary_edge (s : State) (l : Line) : s.nextBoundary.edge l = s.edge l := by cases l <;> rfl

/-- R212: b with the pins in the modes of its phase. -/
def Bd.emit (b : Bd) (c : Config) : Bd :=
  { b with key0 := keyMode b.phase b.line .l0, key1 := keyMode b.phase b.line .l1, gndRef := gndRefMode c }

/-- u is what BD steps on at the coming tick of s: the detectors have run, and nothing BD reads has changed since. -/
structure BdView (s u : State) : Prop where
  cfg : u.cfg = s.cfg
  bd : u.bd = s.bd
  regs : bdRegsKept s u
  level : ∀ l, u.level l = s.level l
  edge : ∀ l, u.edge l = (edgeDetect s).edge l

/-- t holds what BD's phase rule left in w, the pin modes emitted (R210). -/
structure BdShows (w t : State) : Prop where
  regs : bdRegsKept w t
  bd : t.bd = w.bd.emit w.cfg
  pending : ∀ l, (t.edge l).pending = (w.edge l).pending
  armed : ∀ l, (t.edge l).armedPrev = decide (keyMode w.bd.phase w.bd.line l = .inPulldownIrq)

@[simp] theorem edgeDetect_edge (s : State) (l : Line) : (edgeDetect s).edge l = (s.edge l).sample (s.level l) := by
  cases l <;> rfl

theorem bdView_beforeBd (s : State) (m : Mx) (r : Sr) (p : Pw) : BdView s (beforeBd s m r p) :=
  ⟨rfl, rfl, ⟨rfl, rfl, rfl, rfl⟩, fun _ => rfl, fun l => by cases l <;> rfl⟩

theorem bdShows_bdEmit (w : State) : BdShows w (bdEmit w).nextBoundary where
  regs := ⟨rfl, rfl, rfl, rfl⟩
  bd := rfl
  pending l := by rw [State.nextBoundary_edge, bdEmit_pending]
  armed l := by rw [State.nextBoundary_edge]; cases l <;> rfl

/-- All a tick does to BD, its edge detectors and its registers (R210). -/
theorem tick_bd {s t : State} (h : tick s = .next t) : ∃ u, BdView s u ∧ BdShows (bdPhaseStep u) t := by
  obtain ⟨m, r, p, _, _, _, rfl⟩ := tick_next h
  exact ⟨beforeBd s m r p, bdView_beforeBd s m r p, bdShows_bdEmit _⟩

/-- The mode of the pin KEY[l] (R39). -/
def Bd.key (b : Bd) : Line → PinMode
  | .l0 => b.key0
  | .l1 => b.key1

/-- R210, R212: after a tick the pins are in the modes of the phase held, and exactly the pins that wait for an edge are armed. -/
theorem tick_pins {s t : State} (h : tick s = .next t) :
    (∀ l, t.bd.key l = keyMode t.bd.phase t.bd.line l) ∧
      (∀ l, (t.edge l).armedPrev = decide (keyMode t.bd.phase t.bd.line l = .inPulldownIrq)) ∧
      t.bd.gndRef = gndRefMode s.cfg := by
  obtain ⟨u, hu, ht⟩ := tick_bd h
  have hcfg : (bdPhaseStep u).cfg = s.cfg := (bdWrites_bdPhaseStep u).1.trans hu.cfg
  rw [ht.bd, hcfg]
  exact ⟨fun l => by cases l <;> rfl, ht.armed, rfl⟩

/-- The tick from s to t took BD to b and did no more: no register written, no latched edge taken. -/
structure BdMoves (s t : State) (b : Bd) : Prop where
  regs : bdRegsKept s t
  pending : pendingKept s t
  bd : t.bd = b.emit s.cfg

theorem BdMoves.phase {s t : State} {b : Bd} (h : BdMoves s t b) : t.bd.phase = b.phase := by rw [h.bd]; rfl
theorem BdMoves.line {s t : State} {b : Bd} (h : BdMoves s t b) : t.bd.line = b.line := by rw [h.bd]; rfl
theorem BdMoves.rem {s t : State} {b : Bd} (h : BdMoves s t b) : t.bd.rem = b.rem := by rw [h.bd]; rfl
theorem BdMoves.cnt {s t : State} {b : Bd} (h : BdMoves s t b) : t.bd.cnt = b.cnt := by rw [h.bd]; rfl
theorem BdMoves.s1 {s t : State} {b : Bd} (h : BdMoves s t b) : t.bd.s1 = b.s1 := by rw [h.bd]; rfl
theorem BdMoves.s2 {s t : State} {b : Bd} (h : BdMoves s t b) : t.bd.s2 = b.s2 := by rw [h.bd]; rfl

theorem bdRegsKept_trans {s t u : State} (h : bdRegsKept s t) (k : bdRegsKept t u) : bdRegsKept s u := by
  obtain ⟨hf, hst, hls, hpd⟩ := h
  obtain ⟨kf, kst, kls, kpd⟩ := k
  exact ⟨kf.trans hf, kst.trans hst, kls.trans hls, kpd.trans hpd⟩

section
variable {s t u : State} (hu : BdView s u) {b : Bd}
include hu

/-- A phase rule that only sets BD's state. -/
theorem bdMoves_of_setBd (ht : BdShows (u.setBd b) t) : BdMoves s t b := by
  refine ⟨bdRegsKept_trans hu.regs ht.regs, fun l => ?_, ?_⟩
  · rw [ht.pending, State.setBd_edge, hu.edge]
  · rw [ht.bd, State.setBd_cfg, hu.cfg, State.setBd_bd]

/-- A phase rule that ends in the idle check (R214, R225). -/
theorem idleChecked_of_idleCheck (ht : BdShows (idleCheck (u.setBd b)) t) (hp : b.phase = .idle) (hl : b.line = s.bd.line) :
    bdRegsKept s t ∧ idleChecked s t := by
  refine ⟨bdRegsKept_trans hu.regs (bdRegsKept_trans (bdRegsKept_idleCheck (u.setBd b)) ht.regs), ?_⟩
  have h0 := ht.pending .l0
  have h1 := ht.pending .l1
  have hbd := ht.bd
  unfold idleChecked
  rw [← hu.edge .l0, ← hu.edge .l1]
  have hdebounce : u.cfg.tDebounce = s.cfg.tDebounce := congrArg Config.tDebounce hu.cfg
  rcases idleCheck_cases (u.setBd b) with ⟨hp0, hi⟩ | ⟨hp0, hp1, hi⟩ | ⟨hp0, hp1, hi⟩ <;> rw [hi] at h0 h1 hbd <;>
    change (u.edge .l0).pending = _ at hp0 <;> rw [hp0]
  case inl => exact ⟨fun _ => ⟨by rw [hbd]; rfl, by rw [hbd]; rfl, by rw [hbd]; exact hdebounce, h0, h1⟩, nofun, nofun⟩
  case inr.inl =>
    change (u.edge .l1).pending = true at hp1
    rw [hp1]
    exact ⟨nofun, fun _ _ => ⟨by rw [hbd]; rfl, by rw [hbd]; rfl, by rw [hbd]; exact hdebounce, h1, h0.trans hp0⟩, nofun⟩
  case inr.inr =>
    change (u.edge .l1).pending = false at hp1
    rw [hp1]
    refine ⟨nofun, nofun, fun _ _ => ⟨by rw [hbd]; exact hp, by rw [hbd]; exact hl, fun l => ?_⟩⟩
    rw [← hu.edge l, ht.pending l, hi, State.setBd_edge]

end

/-- All the idle check can come to: rest in IDLE, or the debounce of a line whose edge was pending. -/
theorem phase_of_idleChecked {s t : State} (h : idleChecked s t) :
    t.bd.phase = .idle ∨ (t.bd.phase = .debounce ∧ ((edgeDetect s).edge t.bd.line).pending = true) := by
  obtain ⟨h0, h1, hnone⟩ := h
  cases hp0 : ((edgeDetect s).edge .l0).pending with
  | true =>
    obtain ⟨hph, hline, _⟩ := h0 hp0
    exact .inr ⟨hph, hline ▸ hp0⟩
  | false =>
    cases hp1 : ((edgeDetect s).edge .l1).pending with
    | true =>
      obtain ⟨hph, hline, _⟩ := h1 hp0 hp1
      exact .inr ⟨hph, hline ▸ hp1⟩
    | false => exact .inl (hnone hp0 hp1).1

section
variable {s t : State} (h : tick s = .next t)
include h

/-- R214: the tick in IDLE. -/
theorem tick_of_idle (hp : s.bd.phase = .idle) :
    bdRegsKept s t ∧ idleChecked s t ∧ t.bd.s1 = s.bd.s1 ∧ t.bd.s2 = s.bd.s2 := by
  obtain ⟨u, hu, ht⟩ := tick_bd h
  rw [bdPhaseStep_of_idle (hu.bd ▸ hp)] at ht
  obtain ⟨hregs, hidle⟩ := idleChecked_of_idleCheck (b := u.bd) hu ht (hu.bd ▸ hp) (by rw [hu.bd])
  obtain ⟨hs1, hs2⟩ := idleCheck_samples u
  have hbd := ht.bd
  refine ⟨hregs, hidle, ?_, ?_⟩
  · rw [hbd]; exact hs1.trans (by rw [hu.bd])
  · rw [hbd]; exact hs2.trans (by rw [hu.bd])

theorem tick_of_debounce_wait (hp : s.bd.phase = .debounce) (hr : 2 ≤ s.bd.rem) :
    BdMoves s t { s.bd with rem := s.bd.rem - 1 } := by
  obtain ⟨u, hu, ht⟩ := tick_bd h
  rw [bdPhaseStep_of_debounce (hu.bd ▸ hp), debounceStep_of_wait (hu.bd ▸ hr), hu.bd] at ht
  exact bdMoves_of_setBd hu ht

/-- R215: a high level at the expiry of the debounce. -/
theorem tick_of_debounce_high (hp : s.bd.phase = .debounce) (hr : s.bd.rem ≤ 1) (hl : s.level s.bd.line = true) :
    BdMoves s t { s.bd with s1 := none, s2 := none, phase := .dis1, rem := s.cfg.tDischarge } := by
  obtain ⟨u, hu, ht⟩ := tick_bd h
  rw [bdPhaseStep_of_debounce (hu.bd ▸ hp), debounceStep_of_high (hu.bd ▸ hr) (by rw [hu.level, hu.bd, hl]), hu.bd,
    hu.cfg] at ht
  exact bdMoves_of_setBd hu ht

/-- R215: a low level at the expiry of the debounce. -/
theorem tick_of_debounce_low (hp : s.bd.phase = .debounce) (hr : s.bd.rem ≤ 1) (hl : s.level s.bd.line = false) :
    bdRegsKept s t ∧ idleChecked s t := by
  obtain ⟨u, hu, ht⟩ := tick_bd h
  rw [bdPhaseStep_of_debounce (hu.bd ▸ hp), debounceStep_of_low (hu.bd ▸ hr) (by rw [hu.level, hu.bd, hl]), hu.bd] at ht
  exact idleChecked_of_idleCheck hu ht rfl rfl

/-- R216: a tick of a discharge before a pass. -/
theorem tick_of_discharge_wait (hp : s.bd.phase = .dis1 ∨ s.bd.phase = .dis2) (hr : 2 ≤ s.bd.rem) :
    BdMoves s t { s.bd with rem := s.bd.rem - 1 } := by
  obtain ⟨u, hu, ht⟩ := tick_bd h
  have hstep : bdPhaseStep u = u.setBd { s.bd with rem := s.bd.rem - 1 } := by
    rcases hp with hp | hp
    · rw [bdPhaseStep_of_dis1 (hu.bd ▸ hp), dischargeStep_of_wait (hu.bd ▸ hr), hu.bd]
    · rw [bdPhaseStep_of_dis2 (hu.bd ▸ hp), dischargeStep_of_wait (hu.bd ▸ hr), hu.bd]
  exact bdMoves_of_setBd hu (hstep ▸ ht)

/-- R216: the discharge before the first pass ends. -/
theorem tick_of_dis1_end (hp : s.bd.phase = .dis1) (hr : s.bd.rem ≤ 1) :
    BdMoves s t { s.bd with rem := s.bd.rem - 1, phase := .meas1, cnt := 0 } := by
  obtain ⟨u, hu, ht⟩ := tick_bd h
  rw [bdPhaseStep_of_dis1 (hu.bd ▸ hp), dischargeStep_of_end (hu.bd ▸ hr), hu.bd] at ht
  exact bdMoves_of_setBd hu ht

/-- R216: the discharge before the second pass ends. -/
theorem tick_of_dis2_end (hp : s.bd.phase = .dis2) (hr : s.bd.rem ≤ 1) :
    BdMoves s t { s.bd with rem := s.bd.rem - 1, phase := .meas2, cnt := 0 } := by
  obtain ⟨u, hu, ht⟩ := tick_bd h
  rw [bdPhaseStep_of_dis2 (hu.bd ▸ hp), dischargeStep_of_end (hu.bd ▸ hr), hu.bd] at ht
  exact bdMoves_of_setBd hu ht

/-- R217: a poll without an outcome. -/
theorem tick_of_poll_none (hp : s.bd.phase = .meas1 ∨ s.bd.phase = .meas2)
    (hv : pollSample s.cfg (s.bd.cnt + 1) (s.level s.bd.line) = none) : BdMoves s t { s.bd with cnt := s.bd.cnt + 1 } := by
  obtain ⟨u, hu, ht⟩ := tick_bd h
  rw [bdPhaseStep_of_poll_none (hu.bd ▸ hp) (by rw [hu.cfg, hu.level, hu.bd, hv]), hu.bd] at ht
  exact bdMoves_of_setBd hu ht

/-- R217: the first of two passes ends. -/
theorem tick_of_firstPass {v : Option Nat} (hp : s.bd.phase = .meas1) (htwo : s.cfg.doubleSample = true)
    (hv : pollSample s.cfg (s.bd.cnt + 1) (s.level s.bd.line) = some v) :
    BdMoves s t { s.bd with cnt := s.bd.cnt + 1, s1 := v, phase := .dis2, rem := s.cfg.tDischarge } := by
  obtain ⟨u, hu, ht⟩ := tick_bd h
  rw [bdPhaseStep_of_meas1 (hu.bd ▸ hp),
    measureStep1_of_first (by rw [hu.cfg, hu.level, hu.bd, hv]) (hu.cfg ▸ htwo), hu.bd, hu.cfg] at ht
  exact bdMoves_of_setBd hu ht

/-- R217, R222: the last pass ends in the classification of the combined sample and enters HOLD. -/
theorem tick_of_lastPass {v : Option Nat} (hlast : inLastPass s = true)
    (hv : pollSample s.cfg (s.bd.cnt + 1) (s.level s.bd.line) = some v) :
    bdRegsKept (classifySample s (if s.bd.phase = .meas2 then combineSamples s.cfg s.bd.s1 v else v)) t ∧
      pendingKept s t ∧ t.bd.phase = .hold ∧ t.bd.cnt = 0 ∧ t.bd.line = s.bd.line := by
  obtain ⟨u, hu, ht⟩ := tick_bd h
  have hlast' : inLastPass u = true := by rwa [inLastPass, hu.bd, hu.cfg]
  obtain ⟨b, hline, hstep⟩ := bdPhaseStep_of_lastPass hlast' (v := v) (by rw [hu.cfg, hu.level, hu.bd, hv])
  rw [hstep, hu.bd, hu.cfg] at ht
  have hbd := ht.bd
  refine ⟨bdRegsKept_trans (bdRegsKept_classifySample_congr (u := u.setBd b) hu.regs hu.cfg ?_ _) ht.regs, fun l => ?_,
    by rw [hbd]; rfl, by rw [hbd]; rfl, ?_⟩
  · rw [State.setBd_bd, hline, hu.bd]
  · rw [ht.pending l, enterHold, State.setBd_edge, classifySample_edge, State.setBd_edge, hu.edge]
  · rw [hbd, enterHold, State.setBd_bd, classifySample_bd, State.setBd_bd]
    exact hline.trans (congrArg Bd.line hu.bd)

/-- R223: the key is still held, below the cap. -/
theorem tick_of_hold_held (hp : s.bd.phase = .hold) (hl : s.level s.bd.line = true) (hc : s.bd.cnt + 1 ≠ s.cfg.tHoldMax) :
    BdMoves s t { s.bd with cnt := s.bd.cnt + 1 } := by
  obtain ⟨u, hu, ht⟩ := tick_bd h
  rw [bdPhaseStep_of_hold (hu.bd ▸ hp), holdStep_of_held (by rw [hu.level, hu.bd, hl]) (by rw [hu.bd, hu.cfg]; exact hc),
    hu.bd] at ht
  exact bdMoves_of_setBd hu ht

/-- R223: the release wait ends, by the key's release or by the cap. -/
theorem tick_of_hold_end {timeout : Bool} (hp : s.bd.phase = .hold)
    (hend : if timeout then s.level s.bd.line = true ∧ s.bd.cnt + 1 = s.cfg.tHoldMax else s.level s.bd.line = false) :
    bdRegsKept (s.setPressDuration (packPressDuration timeout (s.bd.cnt + 1))) t ∧ pendingKept s t ∧
      t.bd = Bd.emit { s.bd with cnt := s.bd.cnt + 1, phase := .disf, rem := s.cfg.tDischarge } s.cfg := by
  obtain ⟨u, hu, ht⟩ := tick_bd h
  have hstep : holdStep u = endHold u timeout := by
    cases timeout with
    | false => exact holdStep_of_low (by rw [hu.level, hu.bd]; exact hend)
    | true => exact holdStep_of_cap (by rw [hu.level, hu.bd]; exact hend.1) (by rw [hu.bd, hu.cfg]; exact hend.2)
  rw [bdPhaseStep_of_hold (hu.bd ▸ hp), hstep, endHold, hu.bd, hu.cfg] at ht
  have hregs : bdRegsKept (s.setPressDuration (packPressDuration timeout (s.bd.cnt + 1)))
      (u.setPressDuration (packPressDuration timeout (s.bd.cnt + 1))) := by
    obtain ⟨hf, hst, hls, _⟩ := hu.regs
    exact ⟨hf, hst, hls, rfl⟩
  refine ⟨bdRegsKept_trans hregs ht.regs, fun l => ?_, ?_⟩
  · rw [ht.pending l, State.setBd_edge, ← hu.edge l]
    cases l <;> rfl
  · rw [ht.bd, State.setBd_bd, State.setBd_cfg, State.setPressDuration_cfg, hu.cfg]

/-- R224: a tick of the final discharge. -/
theorem tick_of_disf_wait (hp : s.bd.phase = .disf) (hr : 2 ≤ s.bd.rem) : BdMoves s t { s.bd with rem := s.bd.rem - 1 } := by
  obtain ⟨u, hu, ht⟩ := tick_bd h
  rw [bdPhaseStep_of_disf (hu.bd ▸ hp), finalDischargeStep_of_wait (hu.bd ▸ hr), hu.bd] at ht
  exact bdMoves_of_setBd hu ht

/-- R224, R225: the final discharge ends. -/
theorem tick_of_disf_end (hp : s.bd.phase = .disf) (hr : s.bd.rem ≤ 1) : bdRegsKept s t ∧ idleChecked s t := by
  obtain ⟨u, hu, ht⟩ := tick_bd h
  rw [bdPhaseStep_of_disf (hu.bd ▸ hp), finalDischargeStep_of_end (hu.bd ▸ hr), hu.bd] at ht
  exact idleChecked_of_idleCheck hu ht rfl rfl

/-- R217: HOLD is entered where the last pass ends, and in no other way. -/
theorem lastPass_of_tick_to_hold (hp : s.bd.phase ≠ .hold) (ht : t.bd.phase = .hold) :
    inLastPass s = true ∧ (pollSample s.cfg (s.bd.cnt + 1) (s.level s.bd.line)).isSome = true := by
  have hidle : ¬ idleChecked s t := fun hi => by
    rcases phase_of_idleChecked hi with hph | ⟨hph, _⟩ <;> exact absurd (hph.symm.trans ht) BdPhase.noConfusion
  have hmove {b : Bd} (hb : b.phase ≠ .hold) : ¬ BdMoves s t b := fun hm => hb (hm.phase.symm.trans ht)
  cases hph : s.bd.phase with
  | idle => exact absurd (tick_of_idle h hph).2.1 hidle
  | debounce =>
    rcases Nat.lt_or_ge 1 s.bd.rem with hr | hr
    · exact absurd (tick_of_debounce_wait h hph hr) (hmove hp)
    · cases hl : s.level s.bd.line with
      | true => exact absurd (tick_of_debounce_high h hph hr hl) (hmove BdPhase.noConfusion)
      | false => exact absurd (tick_of_debounce_low h hph hr hl).2 hidle
  | dis1 =>
    rcases Nat.lt_or_ge 1 s.bd.rem with hr | hr
    · exact absurd (tick_of_discharge_wait h (.inl hph) hr) (hmove hp)
    · exact absurd (tick_of_dis1_end h hph hr) (hmove BdPhase.noConfusion)
  | meas1 =>
    cases hv : pollSample s.cfg (s.bd.cnt + 1) (s.level s.bd.line) with
    | none => exact absurd (tick_of_poll_none h (.inl hph) hv) (hmove hp)
    | some v =>
      cases htwo : s.cfg.doubleSample with
      | true => exact absurd (tick_of_firstPass h hph htwo hv) (hmove BdPhase.noConfusion)
      | false => exact ⟨by simp [inLastPass, hph, htwo], rfl⟩
  | dis2 =>
    rcases Nat.lt_or_ge 1 s.bd.rem with hr | hr
    · exact absurd (tick_of_discharge_wait h (.inr hph) hr) (hmove hp)
    · exact absurd (tick_of_dis2_end h hph hr) (hmove BdPhase.noConfusion)
  | meas2 =>
    cases hv : pollSample s.cfg (s.bd.cnt + 1) (s.level s.bd.line) with
    | none => exact absurd (tick_of_poll_none h (.inr hph) hv) (hmove hp)
    | some v => exact ⟨by simp [inLastPass, hph], rfl⟩
  | hold => exact absurd hph hp
  | disf =>
    rcases Nat.lt_or_ge 1 s.bd.rem with hr | hr
    · exact absurd (tick_of_disf_wait h hph hr) (hmove hp)
    · exact absurd (tick_of_disf_end h hph hr).2 hidle

end

end Sys2Proof.Machine
end

section
/-! PROOFS. O44 to O46, O48, O49 and O51 to O53: the rules of the button decoder, each from what a tick does in its phase. -/

namespace Sys2Proof.Machine

/-! ### O44: the edge detectors -/

/-- R213: after a detector has run, its edge is pending if it was, or if the armed pin has risen. -/
theorem Edge.sample_pending_iff (e : Edge) (lvl : Bool) :
    (e.sample lvl).pending = true ↔ e.pending = true ∨ (e.armedPrev = true ∧ e.prev = false ∧ lvl = true) := by
  simp [Edge.sample, and_assoc]

/-- An unarmed detector without a latched edge stays without one (R213). -/
theorem Edge.sample_of_disarmed {e : Edge} (hp : e.pending = false) (ha : e.armedPrev = false) (lvl : Bool) :
    (e.sample lvl).pending = false := by
  simp [Edge.sample, hp, ha]

/-- Settles O44: a detector writes its own fields only, and at reset no pin is armed. -/
theorem edgeDetectorRule : Obligations.EdgeDetectorRule := by
  refine ⟨fun s l => ?_, fun _ => rfl, fun c s l => ?_⟩
  · rw [edgeDetect_edge]
    exact ⟨(s.edge l).sample_pending_iff (s.level l), rfl, rfl⟩
  · rw [edgeDetect_edge]
    cases l <;> exact Edge.sample_of_disarmed rfl rfl _

/-! ### O45, O46 and O52: the phases without a sample -/

/-- Settles O45: the tick in IDLE is the idle check. -/
theorem idleServesLineZeroFirst : Obligations.IdleServesLineZeroFirst := by
  intro s t h hp
  obtain ⟨hregs, hidle, hsamples⟩ := tick_of_idle h hp
  exact ⟨hidle, hregs, hsamples⟩

/-- Settles O46: the count falls until its expiry, where the level alone decides between DIS1 and the idle check. -/
theorem debounceLooksOnce : Obligations.DebounceLooksOnce := by
  intro s t h hp
  refine ⟨?regs, fun hr => ?wait, fun hr hl => ?high, fun hr hl => (tick_of_debounce_low h hp hr.le hl).2⟩
  case regs =>
    rcases Nat.lt_or_ge 1 s.bd.rem with hr | hr
    · exact (tick_of_debounce_wait h hp hr).regs
    · cases hl : s.level s.bd.line with
      | true => exact (tick_of_debounce_high h hp hr hl).regs
      | false => exact (tick_of_debounce_low h hp hr hl).1
  case wait =>
    have hm := tick_of_debounce_wait h hp hr
    exact ⟨hm.phase.trans hp, hm.rem, hm.line, hm.pending⟩
  case high =>
    have hm := tick_of_debounce_high h hp hr.le hl
    exact ⟨hm.phase, hm.rem, hm.s1, hm.s2, hm.line, hm.pending⟩

theorem packPressDuration_toNat_released {n : Nat} (h : n < 2 ^ 23) : (packPressDuration false n).toNat = n := by
  rw [packPressDuration_toNat, Nat.mod_eq_of_lt h]
  rfl

theorem packPressDuration_toNat_timeout {n : Nat} (h : n < 2 ^ 23) : (packPressDuration true n).toNat = 2 ^ 23 + n := by
  rw [packPressDuration_toNat, Nat.mod_eq_of_lt h, if_pos rfl, Nat.add_comm]

/-- R223: all a tick of HOLD does: the release, the cap, or one tick more. -/
theorem tick_of_hold {s t : State} (h : tick s = .next t) (hp : s.bd.phase = .hold) :
    t.fifo = s.fifo ∧ t.status = s.status ∧ t.lastSample = s.lastSample ∧ t.bd.line = s.bd.line ∧ pendingKept s t ∧
      (s.level s.bd.line = false → t.bd.phase = .disf ∧ t.bd.rem = s.cfg.tDischarge ∧
        t.pressDuration = packPressDuration false (s.bd.cnt + 1)) ∧
      (s.level s.bd.line = true → s.bd.cnt + 1 = s.cfg.tHoldMax → t.bd.phase = .disf ∧ t.bd.rem = s.cfg.tDischarge ∧
        t.pressDuration = packPressDuration true (s.bd.cnt + 1)) ∧
      (s.level s.bd.line = true → s.bd.cnt + 1 ≠ s.cfg.tHoldMax → t.bd.phase = .hold ∧ t.bd.cnt = s.bd.cnt + 1 ∧
        t.pressDuration = s.pressDuration) := by
  cases hl : s.level s.bd.line with
  | false =>
    obtain ⟨⟨hf, hst, hls, hpd⟩, hpend, hbd⟩ := tick_of_hold_end (timeout := false) h hp hl
    exact ⟨hf, hst, hls, by rw [hbd]; rfl, hpend, fun _ => ⟨by rw [hbd]; rfl, by rw [hbd]; rfl, hpd⟩, nofun, nofun⟩
  | true =>
    by_cases hc : s.bd.cnt + 1 = s.cfg.tHoldMax
    · obtain ⟨⟨hf, hst, hls, hpd⟩, hpend, hbd⟩ := tick_of_hold_end (timeout := true) h hp ⟨hl, hc⟩
      exact ⟨hf, hst, hls, by rw [hbd]; rfl, hpend, nofun, fun _ _ => ⟨by rw [hbd]; rfl, by rw [hbd]; rfl, hpd⟩,
        fun _ hn => absurd hc hn⟩
    · have hm := tick_of_hold_held h hp hl hc
      obtain ⟨hf, hst, hls, hpd⟩ := hm.regs
      exact ⟨hf, hst, hls, hm.line, hm.pending, nofun, fun _ hy => absurd hy hc,
        fun _ _ => ⟨hm.phase.trans hp, hm.cnt, hpd⟩⟩

/-- R224, R225: all a tick of the final discharge does. -/
theorem tick_of_disf {s t : State} (h : tick s = .next t) (hp : s.bd.phase = .disf) :
    bdRegsKept s t ∧
      (2 ≤ s.bd.rem → t.bd.phase = .disf ∧ t.bd.rem = s.bd.rem - 1 ∧ t.bd.line = s.bd.line ∧ pendingKept s t) ∧
      (s.bd.rem = 1 → idleChecked s t) := by
  refine ⟨?_, fun hr => ?_, fun hr => (tick_of_disf_end h hp hr.le).2⟩
  · rcases Nat.lt_or_ge 1 s.bd.rem with hr | hr
    · exact (tick_of_disf_wait h hp hr).regs
    · exact (tick_of_disf_end h hp hr).1
  · have hm := tick_of_disf_wait h hp hr
    exact ⟨hm.phase.trans hp, hm.rem, hm.line, hm.pending⟩

/-- Settles O52: HOLD is entered where the last pass ends, and left for DISF by the release or the cap. -/
theorem holdAndFinalDischarge : Obligations.HoldAndFinalDischarge := by
  intro s t h
  refine ⟨fun hlast hv => ?entry, lastPass_of_tick_to_hold h, fun hp => ?hold, tick_of_disf h⟩
  case entry =>
    obtain ⟨v, hv⟩ := Option.isSome_iff_exists.mp hv
    obtain ⟨⟨_, _, _, hpd⟩, _, hph, hcnt, hline⟩ := tick_of_lastPass h hlast hv
    exact ⟨hph, hcnt, hline, hpd.trans (classifySample_pressDuration s _)⟩
  case hold =>
    obtain ⟨hf, hst, hls, hline, hpend, hlow, hcap, hheld⟩ := tick_of_hold h hp
    refine ⟨hf, hst, hls, hline, hpend, fun hl => ?_, fun hl hc => ?_, hheld⟩
    · obtain ⟨hph, hrem, hpd⟩ := hlow hl
      exact ⟨hph, hrem, fun hn => by rw [hpd, packPressDuration_toNat_released hn]⟩
    · obtain ⟨hph, hrem, hpd⟩ := hcap hl hc
      exact ⟨hph, hrem, fun hn => by rw [hpd, packPressDuration_toNat_timeout hn]⟩

/-! ### O48, O49 and O51: the classification -/

/-- Settles O48: the cases of R219, and a mean that does not exceed what bounds both. -/
theorem combineRule : Obligations.CombineRule := by
  refine ⟨fun c a b h => ?_, fun c a b h => if_neg (Bool.eq_false_iff.mp h)⟩
  exact ⟨if_pos h, if_pos h, if_pos h, if_pos h, by omega⟩

/-- R227: the lookup is a search for the first matching entry. -/
theorem lookupButton_eq_find (c : Config) (l : Line) (s : Nat) (t : List Entry) :
    lookupButton c l s t = (t.find? fun e => entryMatches c l e s).map Entry.button := by
  induction t with
  | nil => rfl
  | cons e rest ih =>
    cases h : entryMatches c l e s with
    | true => simp [lookupButton_cons_of_match h, h]
    | false => simp [lookupButton_cons_of_not_match h, h, ih]

/-- Settles O49: the tests of R226, and the search that R227 is. -/
theorem firstMatchingEntryWins : Obligations.FirstMatchingEntryWins := by
  refine ⟨fun c l e s => ⟨fun h => entryMatches_lt2x_iff c l h s, fun h => entryMatches_band_iff c l h s⟩,
    fun c l s t b => ?_, fun c l s t => ?_⟩
  · rw [lookupButton_eq_find, Option.map_eq_some_iff]
    simp only [List.find?_eq_some_iff_append, Bool.not_eq_true']
    constructor
    · rintro ⟨e, ⟨hm, pre, post, ht, hpre⟩, hb⟩
      exact ⟨pre, e, post, ht, hb, hm, hpre⟩
    · rintro ⟨pre, e, post, ht, hb, hm, hpre⟩
      exact ⟨e, ⟨hm, pre, post, ht, hpre⟩, hb⟩
  · rw [lookupButton_eq_find, Option.map_eq_none_iff, List.find?_eq_none]
    simp only [Bool.not_eq_true]

/-- LAST_SAMPLE as a number: the sample's 20 bits, and VALID, LINE and MATCHED above them (R31). -/
theorem packLastSample_toNat (matched : Bool) (l : Line) (valid : Bool) {n : Nat} (h : n < 2 ^ 20) :
    (packLastSample matched l valid n).toNat =
      n + 2 ^ 20 * valid.toNat + 2 ^ 21 * (lineBit l).toNat + 2 ^ 22 * matched.toNat := by
  have hn : ((BitVec.ofNat 20 n).setWidth 24).toNat = n := by
    rw [BitVec.toNat_setWidth, BitVec.toNat_ofNat]
    omega
  have hflags : (flagBit 20 valid ||| (flagBit 21 (lineBit l) ||| flagBit 22 matched)).toNat =
      2 ^ 20 * (valid.toNat + 2 * (lineBit l).toNat + 4 * matched.toNat) := by
    cases valid <;> cases l <;> cases matched <;> decide
  rw [packLastSample, BitVec.or_assoc, BitVec.or_assoc, BitVec.toNat_or, hn, hflags, Nat.or_comm,
    ← Nat.two_pow_add_eq_or_of_lt h]
  omega

/-- Settles O51: the tick that ends the last pass leaves of the registers what classify() writes. -/
theorem classificationOutcome : Obligations.ClassificationOutcome := by
  intro s t v x h hlast hv hx
  obtain ⟨⟨hf, hst, hls, _⟩, _⟩ := tick_of_lastPass h hlast hv
  rw [← hx] at hf hst hls
  refine ⟨fun hnone => ?absent, fun n hsome hn hno => ?unmatched, fun n b hsome hn hb => ?matched⟩
  case absent =>
    subst hnone
    refine ⟨?_, hf, hst⟩
    rw [hls]
    exact (packLastSample_toNat false s.bd.line false (by decide)).trans (by simp)
  case unmatched =>
    subst hsome
    simp only [classifySample, hno] at hf hst hls
    refine ⟨?_, hf, hst⟩
    rw [hls]
    exact (packLastSample_toNat false s.bd.line true hn).trans (by simp)
  case matched =>
    subst hsome
    simp only [classifySample, hb] at hf hst hls
    refine ⟨?_, ?_⟩
    · rw [hls, State.pushEvent_lastSample]
      exact (packLastSample_toNat true s.bd.line true hn).trans (by simp)
    · rcases (s.setLastSample (packLastSample true s.bd.line true n)).pushEvent_cases b s.bd.line with
        ⟨hlt, hp⟩ | ⟨hge, hp⟩ <;> rw [hp] at hf hst
      · exact ⟨fun _ => ⟨hf, hst⟩, fun hge => absurd hlt (Nat.not_lt.mpr hge)⟩
      · exact ⟨fun hlt => absurd hlt hge, fun _ => ⟨hf, hst⟩⟩

/-! ### O53: the pins -/

/-- R212: the table of pin modes, with the line not serviced first. -/
theorem keyMode_eq (p : BdPhase) (serviced l : Line) :
    keyMode p serviced l = if l ≠ serviced then .inPulldownIrq else servicedMode p :=
  (ite_not ..).symm

/-- Settles O53: a tick ends by emitting the modes of the phase held, and arms the pins that wait for an edge. -/
theorem pinModesFollowThePhase : Obligations.PinModesFollowThePhase := by
  intro s t h l
  obtain ⟨hkey, harmed, hgnd⟩ := tick_pins h
  have hirq : (t.edge l).armedPrev = true ↔ t.bd.key l = .inPulldownIrq := by rw [harmed, hkey, decide_eq_true_iff]
  refine ⟨(hkey l).trans ?_, hirq, hgnd⟩
  rw [keyMode_eq]
  cases t.bd.phase <;> rfl

end Sys2Proof.Machine
end

section
/-! PROOFS. O54: the timeline of a press, as one predicate over the boundaries of the run that each tick carries on. -/

namespace Sys2Proof.Machine

/-! ### R6 and R218 -/

/-- R6: a debounce and a discharge last at least one tick. -/
theorem wf_pressTimes {c : Config} (h : c.wf = true) : 1 ≤ c.tDebounce ∧ 1 ≤ c.tDischarge := by
  simp only [Config.wf, Config.wfTimes, Bool.and_eq_true, decide_eq_true_eq] at h
  omega

section
variable {s : State} {l : Line} {b d : Nat} {x : Option Nat} (h : s.passGives l b d x)
include h

/-- R217, R218: no poll before the end of a pass has an outcome. -/
theorem State.passGives.poll_before {j : Nat} (h0 : 0 < j) (hj : j < d) :
    pollSample s.cfg j (s.levelAt (b + j) l) = none := by
  obtain ⟨_, hcap, hlow, _⟩ := h
  rw [hlow j h0 hj, pollSample, if_neg Bool.noConfusion, if_neg (by omega)]

/-- R217, R218: the poll at the end of a pass gives its sample. -/
theorem State.passGives.poll_end : pollSample s.cfg d (s.levelAt (b + d) l) = some x := by
  obtain ⟨_, _, _, ⟨hl, hx⟩ | ⟨hl, hd, hx⟩⟩ := h
  · rw [hl, hx, pollSample, if_pos rfl]
  · rw [hl, hx, pollSample, if_neg Bool.noConfusion, if_pos hd]

end

/-! ### Ticks and runs -/

/-- R212: only in IDLE is the serviced pin armed. -/
theorem servicedMode_ne_irq {p : BdPhase} (h : p ≠ .idle) : servicedMode p ≠ .inPulldownIrq := by
  cases p <;> simp_all [servicedMode]

/-- R214: BD begins the service of the edge that `servesNext` names. -/
theorem serves_of_idleChecked {s t : State} {l : Line} (hs : s.servesNext l = true) (h : idleChecked s t) :
    t.bd.phase = .debounce ∧ t.bd.line = l ∧ t.bd.rem = s.cfg.tDebounce ∧ (t.edge l).pending = false := by
  obtain ⟨h0, h1, _⟩ := h
  simp only [State.servesNext, Bool.and_eq_true] at hs
  obtain ⟨⟨_, hpend⟩, hfirst⟩ := hs
  cases l with
  | l0 =>
    obtain ⟨hph, hline, hrem, hp, _⟩ := h0 hpend
    exact ⟨hph, hline, hrem, hp⟩
  | l1 =>
    have hp0 : (edgeDetect s).edge0.pending = false := by simpa using hfirst
    obtain ⟨hph, hline, hrem, hp, _⟩ := h1 hp0 hpend
    exact ⟨hph, hline, hrem, hp⟩

theorem phase_idle_of_servesNext {s : State} {l : Line} (hs : s.servesNext l = true) : s.bd.phase = .idle := by
  simp only [State.servesNext, Bool.and_eq_true, decide_eq_true_eq] at hs
  obtain ⟨⟨hph, _⟩, _⟩ := hs
  exact hph

/-- The serviced pin is not armed after a tick that leaves BD out of IDLE (R210, R212). -/
theorem disarmed_of_tick {s t : State} (h : tick s = .next t) (hp : t.bd.phase ≠ .idle) :
    (t.edge t.bd.line).armedPrev = false := by
  obtain ⟨_, harmed, _⟩ := tick_pins h
  rw [harmed, keyMode, if_pos rfl, decide_eq_false (servicedMode_ne_irq hp)]

/-- A run's last tick. -/
theorem runTicks_succ {n : Nat} {s t : State} (h : runTicks (n + 1) s = some t) :
    ∃ u, runTicks n s = some u ∧ tick u = .next t := by
  rw [runTicks] at h
  cases hu : runTicks n s with
  | none => rw [hu] at h; cases h
  | some u =>
    rw [hu] at h
    cases ht : tick u with
    | next v =>
      simp only [ht, Option.some.injEq] at h
      exact ⟨u, rfl, h ▸ ht⟩
    | fault _ => simp [ht] at h
    | refused _ => simp [ht] at h

theorem tick_world {s t : State} (h : tick s = .next t) : t.world = { s.world with now := s.world.now + 1 } := by
  obtain ⟨m, r, p, _, _, _, rfl⟩ := tick_next h
  exact finishTick_world s m r p

/-! ### A press -/

/-- R218, R231: a press as the timeline tells it: the state whose coming boundary serves the edge, the line, the samples of
the two passes with the ticks they last, and the hold count at which the release is seen. -/
structure Press where
  start : State
  line : Line
  x1 : Option Nat
  x2 : Option Nat
  d1 : Nat
  d2 : Nat
  h : Nat

namespace Press

variable (p : Press)

/-- R231: the offsets of the boundaries at which the phases end, counted from the one that serves the edge. -/
def k1 : Nat := p.start.cfg.tDebounce
def k2 : Nat := p.k1 + p.start.cfg.tDischarge
def k3 : Nat := p.k2 + p.d1
def k4 : Nat := p.k3 + p.start.cfg.tDischarge
def k5 : Nat := p.k4 + p.d2
def k6 : Nat := p.k5 + p.h
def k7 : Nat := p.k6 + p.start.cfg.tDischarge

/-- The level of the line at offset n. -/
def levelAt (n : Nat) : Bool := p.start.levelAt (p.start.world.now + n) p.line

/-- The press is as the timeline assumes: two passes, the edge served at once, the key levels those of the samples and of the
release. -/
structure Ok : Prop where
  wf : p.start.cfg.wf = true
  two : p.start.cfg.doubleSample = true
  serves : p.start.servesNext p.line = true
  high : p.levelAt p.k1 = true
  pass1 : p.start.passGives p.line (p.start.world.now + p.k2) p.d1 p.x1
  pass2 : p.start.passGives p.line (p.start.world.now + p.k4) p.d2 p.x2
  hold_pos : 1 ≤ p.h
  hold_le : p.h ≤ p.start.cfg.tHoldMax
  held : ∀ j, p.k5 < j → j < p.k6 → p.levelAt j = true
  released : p.levelAt p.k6 = false

/-- The times of a press and their order. -/
theorem Ok.times {p : Press} (hp : p.Ok) : 1 ≤ p.k1 ∧ p.k1 + p.start.cfg.tDischarge = p.k2 ∧ p.k1 < p.k2 ∧
    p.k2 + p.d1 = p.k3 ∧ p.k2 < p.k3 ∧ p.k3 + p.start.cfg.tDischarge = p.k4 ∧ p.k3 < p.k4 ∧ p.k4 + p.d2 = p.k5 ∧
    p.k4 < p.k5 ∧ p.k5 + p.h = p.k6 ∧ p.k5 < p.k6 ∧ p.k6 + p.start.cfg.tDischarge = p.k7 ∧ p.k6 < p.k7 := by
  obtain ⟨hdebounce, hdischarge⟩ := wf_pressTimes hp.wf
  obtain ⟨hd1, _⟩ := hp.pass1
  obtain ⟨hd2, _⟩ := hp.pass2
  have hh := hp.hold_pos
  have hlt (a : Nat) {d : Nat} (hd : 1 ≤ d) : a < a + d := Nat.lt_add_of_pos_right hd
  exact ⟨hdebounce, rfl, hlt _ hdischarge, rfl, hlt _ hd1, rfl, hlt _ hdischarge, rfl, hlt _ hd2, rfl, hlt _ hh, rfl,
    hlt _ hdischarge⟩

/-! ### What holds after each boundary -/

/-- BD's state after the boundary at offset n, before the return to IDLE: the phase of R231 and its counter. -/
inductive Stage (n : Nat) (b : Bd) : Prop
  | debounce (hn : n < p.k1) (hph : b.phase = .debounce) (hrem : n + b.rem = p.k1)
  | dis1 (h0 : p.k1 ≤ n) (hn : n < p.k2) (hph : b.phase = .dis1) (hrem : n + b.rem = p.k2)
  | meas1 (h0 : p.k2 ≤ n) (hn : n < p.k3) (hph : b.phase = .meas1) (hcnt : p.k2 + b.cnt = n)
  | dis2 (h0 : p.k3 ≤ n) (hn : n < p.k4) (hph : b.phase = .dis2) (hrem : n + b.rem = p.k4) (hs1 : b.s1 = p.x1)
  | meas2 (h0 : p.k4 ≤ n) (hn : n < p.k5) (hph : b.phase = .meas2) (hcnt : p.k4 + b.cnt = n) (hs1 : b.s1 = p.x1)
  | hold (h0 : p.k5 ≤ n) (hn : n < p.k6) (hph : b.phase = .hold) (hcnt : p.k5 + b.cnt = n)
  | disf (h0 : p.k6 ≤ n) (hn : n < p.k7) (hph : b.phase = .disf) (hrem : n + b.rem = p.k7)

/-- The start with the line of the press as BD's line, as DEBOUNCE finds it. -/
def served : State := p.start.setBd { p.start.bd with line := p.line }

/-- What the classification of the press leaves of the registers (R222). -/
def classified : State := classifySample p.served (combineSamples p.start.cfg p.x1 p.x2)

/-- The registers BD writes after the boundary at offset n: the event and LAST_SAMPLE from k5 on, PRESS_DURATION from k6 on. -/
def regsAt (n : Nat) : State :=
  if n < p.k5 then p.served
  else if n < p.k6 then p.classified
  else p.classified.setPressDuration (packPressDuration false p.h)

/-- All that holds after the boundary at offset n, before the return to IDLE. -/
structure At (n : Nat) (t : State) : Prop where
  cfg : t.cfg = p.start.cfg
  world : t.world = { p.start.world with now := p.start.world.now + n + 1 }
  line : t.bd.line = p.line
  pending : (t.edge p.line).pending = false
  disarmed : (t.edge p.line).armedPrev = false
  regs : bdRegsKept (p.regsAt n) t
  stage : p.Stage n t.bd

section
variable {p}

theorem Stage.phase_ne_idle {n : Nat} {b : Bd} (h : p.Stage n b) : b.phase ≠ .idle := by
  cases h <;> simp_all

theorem regsAt_of_lt {n : Nat} (h : n < p.k5) : p.regsAt n = p.served := if_pos h

theorem regsAt_succ_of_lt {n : Nat} (h : n + 1 < p.k5) : p.regsAt (n + 1) = p.regsAt n :=
  (regsAt_of_lt h).trans (regsAt_of_lt (by omega)).symm

theorem regsAt_of_hold {n : Nat} (h0 : p.k5 ≤ n) (h : n < p.k6) : p.regsAt n = p.classified := by
  rw [regsAt, if_neg (by omega), if_pos h]

theorem regsAt_of_released (hp : p.Ok) {n : Nat} (h : p.k6 ≤ n) :
    p.regsAt n = p.classified.setPressDuration (packPressDuration false p.h) := by
  have ht := hp.times
  rw [regsAt, if_neg (by omega), if_neg (by omega)]

end

/-! ### From one boundary to the next -/

section
variable {p} (hp : p.Ok) {n : Nat} {t t' : State}

/-- The boundary that serves the edge. -/
theorem At.first (hp : p.Ok) (h : tick p.start = .next t) : p.At 0 t := by
  have hk := hp.times
  obtain ⟨hregs, hidle, _⟩ := tick_of_idle h (phase_idle_of_servesNext hp.serves)
  obtain ⟨hph, hline, hrem, hpend⟩ := serves_of_idleChecked hp.serves hidle
  have hdisarmed := disarmed_of_tick h (hph.trans_ne BdPhase.noConfusion)
  refine ⟨tick_cfg h, tick_world h, hline, hpend, hline ▸ hdisarmed, ?_, .debounce (by omega) hph ?_⟩
  · rw [regsAt_of_lt (by omega)]
    exact hregs
  · rw [hrem, Nat.zero_add, k1]

/-- The edge of the line is not latched while BD serves the line (R213, R230). -/
theorem At.not_pending (h : p.At n t) : ((edgeDetect t).edge p.line).pending = false := by
  rw [edgeDetect_edge]
  exact Edge.sample_of_disarmed h.pending h.disarmed _

theorem At.level (h : p.At n t) : t.level t.bd.line = p.levelAt (n + 1) := by
  rw [h.line]
  exact State.level_congr (s := p.start.setWorld { p.start.world with now := p.start.world.now + (n + 1) }) h.world p.line

/-- A tick that takes no edge carries all of it on but the stage and the registers. -/
theorem At.of_tick (h : p.At n t) (ht : tick t = .next t') (hpend : pendingKept t t') (hline : t'.bd.line = t.bd.line)
    (hregs : bdRegsKept (p.regsAt (n + 1)) t') (hstage : p.Stage (n + 1) t'.bd) : p.At (n + 1) t' where
  cfg := (tick_cfg ht).trans h.cfg
  world := by rw [tick_world ht, h.world]; rfl
  line := hline.trans h.line
  pending := (hpend p.line).trans h.not_pending
  disarmed := by
    have hd := disarmed_of_tick ht hstage.phase_ne_idle
    rwa [hline, h.line] at hd
  regs := hregs
  stage := hstage

/-- A tick that only moves BD on. -/
theorem At.of_moves (h : p.At n t) (ht : tick t = .next t') {b : Bd} (hm : BdMoves t t' b) (hline : b.line = t.bd.line)
    (hregs : p.regsAt (n + 1) = p.regsAt n) (hstage : p.Stage (n + 1) t'.bd) : p.At (n + 1) t' :=
  h.of_tick ht hm.pending (hm.line.trans hline) (hregs ▸ bdRegsKept_trans h.regs hm.regs) hstage

/-- What the poll of a pass finds at the coming boundary. -/
theorem At.poll (h : p.At n t) {k d : Nat} {x : Option Nat}
    (hpass : p.start.passGives p.line (p.start.world.now + k) d x) (hcnt : k + t.bd.cnt = n) :
    (n + 1 < k + d → pollSample t.cfg (t.bd.cnt + 1) (t.level t.bd.line) = none) ∧
      (n + 1 = k + d → pollSample t.cfg (t.bd.cnt + 1) (t.level t.bd.line) = some x) := by
  have hat : p.start.world.now + (n + 1) = p.start.world.now + k + (t.bd.cnt + 1) := by omega
  rw [h.level, h.cfg, levelAt, hat]
  refine ⟨fun hlt => hpass.poll_before (by omega) (by omega), fun hend => ?_⟩
  obtain rfl : d = t.bd.cnt + 1 := by omega
  exact hpass.poll_end

include hp

theorem At.next_of_debounce (h : p.At n t) (ht : tick t = .next t') (hn : n < p.k1) (hph : t.bd.phase = .debounce)
    (hrem : n + t.bd.rem = p.k1) : p.At (n + 1) t' := by
  have hk := hp.times
  rcases Nat.lt_or_ge (n + 1) p.k1 with hlt | hge
  · have hm := tick_of_debounce_wait ht hph (by omega)
    have hr : t'.bd.rem = t.bd.rem - 1 := hm.rem
    exact h.of_moves ht hm rfl (regsAt_succ_of_lt (by omega)) (.debounce hlt (hm.phase.trans hph) (by omega))
  · have hl : t.level t.bd.line = true := by rw [h.level, ← hp.high]; congr 1; omega
    have hm := tick_of_debounce_high ht hph (by omega) hl
    have hr : t'.bd.rem = p.start.cfg.tDischarge := hm.rem.trans (congrArg Config.tDischarge h.cfg)
    exact h.of_moves ht hm rfl (regsAt_succ_of_lt (by omega)) (.dis1 hge (by omega) hm.phase (by omega))

theorem At.next_of_dis1 (h : p.At n t) (ht : tick t = .next t') (h0 : p.k1 ≤ n) (hn : n < p.k2)
    (hph : t.bd.phase = .dis1) (hrem : n + t.bd.rem = p.k2) : p.At (n + 1) t' := by
  have hk := hp.times
  rcases Nat.lt_or_ge (n + 1) p.k2 with hlt | hge
  · have hm := tick_of_discharge_wait ht (.inl hph) (by omega)
    have hr : t'.bd.rem = t.bd.rem - 1 := hm.rem
    exact h.of_moves ht hm rfl (regsAt_succ_of_lt (by omega)) (.dis1 (by omega) hlt (hm.phase.trans hph) (by omega))
  · have hm := tick_of_dis1_end ht hph (by omega)
    have hc : t'.bd.cnt = 0 := hm.cnt
    exact h.of_moves ht hm rfl (regsAt_succ_of_lt (by omega)) (.meas1 hge (by omega) hm.phase (by omega))

theorem At.next_of_meas1 (h : p.At n t) (ht : tick t = .next t') (h0 : p.k2 ≤ n) (hn : n < p.k3)
    (hph : t.bd.phase = .meas1) (hcnt : p.k2 + t.bd.cnt = n) : p.At (n + 1) t' := by
  have hk := hp.times
  obtain ⟨hon, hend⟩ := h.poll hp.pass1 hcnt
  rcases Nat.lt_or_ge (n + 1) p.k3 with hlt | hge
  · have hm := tick_of_poll_none ht (.inl hph) (hon (by omega))
    have hc : t'.bd.cnt = t.bd.cnt + 1 := hm.cnt
    exact h.of_moves ht hm rfl (regsAt_succ_of_lt (by omega)) (.meas1 (by omega) hlt (hm.phase.trans hph) (by omega))
  · have hm := tick_of_firstPass ht hph (h.cfg ▸ hp.two) (hend (by omega))
    have hr : t'.bd.rem = p.start.cfg.tDischarge := hm.rem.trans (congrArg Config.tDischarge h.cfg)
    exact h.of_moves ht hm rfl (regsAt_succ_of_lt (by omega)) (.dis2 hge (by omega) hm.phase (by omega) hm.s1)

theorem At.next_of_dis2 (h : p.At n t) (ht : tick t = .next t') (h0 : p.k3 ≤ n) (hn : n < p.k4)
    (hph : t.bd.phase = .dis2) (hrem : n + t.bd.rem = p.k4) (hs1 : t.bd.s1 = p.x1) : p.At (n + 1) t' := by
  have hk := hp.times
  rcases Nat.lt_or_ge (n + 1) p.k4 with hlt | hge
  · have hm := tick_of_discharge_wait ht (.inr hph) (by omega)
    have hr : t'.bd.rem = t.bd.rem - 1 := hm.rem
    exact h.of_moves ht hm rfl (regsAt_succ_of_lt (by omega))
      (.dis2 (by omega) hlt (hm.phase.trans hph) (by omega) (hm.s1.trans hs1))
  · have hm := tick_of_dis2_end ht hph (by omega)
    have hc : t'.bd.cnt = 0 := hm.cnt
    exact h.of_moves ht hm rfl (regsAt_succ_of_lt (by omega))
      (.meas2 hge (by omega) hm.phase (by omega) (hm.s1.trans hs1))

theorem At.next_of_meas2 (h : p.At n t) (ht : tick t = .next t') (h0 : p.k4 ≤ n) (hn : n < p.k5)
    (hph : t.bd.phase = .meas2) (hcnt : p.k4 + t.bd.cnt = n) (hs1 : t.bd.s1 = p.x1) : p.At (n + 1) t' := by
  have hk := hp.times
  obtain ⟨hon, hend⟩ := h.poll hp.pass2 hcnt
  rcases Nat.lt_or_ge (n + 1) p.k5 with hlt | hge
  · have hm := tick_of_poll_none ht (.inr hph) (hon (by omega))
    have hc : t'.bd.cnt = t.bd.cnt + 1 := hm.cnt
    exact h.of_moves ht hm rfl (regsAt_succ_of_lt hlt)
      (.meas2 (by omega) hlt (hm.phase.trans hph) (by omega) (hm.s1.trans hs1))
  · obtain ⟨hregs, hpend, hph', hcnt', hline⟩ := tick_of_lastPass ht (by simp [inLastPass, hph]) (hend (by omega))
    rw [if_pos hph, hs1, h.cfg] at hregs
    refine h.of_tick ht hpend hline ?_ (.hold hge (by omega) hph' (by omega))
    have hnow := h.regs
    rw [regsAt_of_lt hn] at hnow
    rw [regsAt_of_hold hge (by omega)]
    exact bdRegsKept_trans (bdRegsKept_classifySample_congr hnow h.cfg h.line _) hregs

theorem At.next_of_hold (h : p.At n t) (ht : tick t = .next t') (h0 : p.k5 ≤ n) (hn : n < p.k6)
    (hph : t.bd.phase = .hold) (hcnt : p.k5 + t.bd.cnt = n) : p.At (n + 1) t' := by
  have hk := hp.times
  have hcap := hp.hold_le
  rcases Nat.lt_or_ge (n + 1) p.k6 with hlt | hge
  · have hl : t.level t.bd.line = true := h.level.trans (hp.held _ (by omega) hlt)
    have hm := tick_of_hold_held ht hph hl (by rw [h.cfg]; omega)
    have hc : t'.bd.cnt = t.bd.cnt + 1 := hm.cnt
    exact h.of_moves ht hm rfl (by rw [regsAt_of_hold (by omega) hlt, regsAt_of_hold h0 hn])
      (.hold (by omega) hlt (hm.phase.trans hph) (by omega))
  · have hl : t.level t.bd.line = false := by rw [h.level, ← hp.released]; congr 1; omega
    obtain ⟨⟨hf, hst, hls, hpd⟩, hpend, hbd⟩ := tick_of_hold_end (timeout := false) ht hph hl
    have hc : t.bd.cnt + 1 = p.h := by omega
    have hnow := h.regs
    rw [regsAt_of_hold h0 hn] at hnow
    obtain ⟨hf', hst', hls', _⟩ := hnow
    refine h.of_tick ht hpend (by rw [hbd]; rfl) ?_ (.disf hge (by omega) (by rw [hbd]; rfl) ?_)
    · rw [regsAt_of_released hp hge, ← hc]
      exact ⟨hf.trans hf', hst.trans hst', hls.trans hls', hpd⟩
    · rw [hbd, h.cfg]
      show n + 1 + p.start.cfg.tDischarge = p.k7
      omega

theorem At.next_of_disf (h : p.At n t) (ht : tick t = .next t') (h0 : p.k6 ≤ n) (hn : n + 1 < p.k7)
    (hph : t.bd.phase = .disf) (hrem : n + t.bd.rem = p.k7) : p.At (n + 1) t' := by
  have hm := tick_of_disf_wait ht hph (by omega)
  have hr : t'.bd.rem = t.bd.rem - 1 := hm.rem
  exact h.of_moves ht hm rfl (by rw [regsAt_of_released hp (by omega), regsAt_of_released hp h0])
    (.disf (by omega) hn (hm.phase.trans hph) (by omega))

/-- Every boundary before the return to IDLE carries the timeline on (R231). -/
theorem At.next (h : p.At n t) (ht : tick t = .next t') (hn : n + 1 < p.k7) : p.At (n + 1) t' := by
  cases h.stage with
  | debounce hlt hph hrem => exact h.next_of_debounce hp ht hlt hph hrem
  | dis1 h0 hlt hph hrem => exact h.next_of_dis1 hp ht h0 hlt hph hrem
  | meas1 h0 hlt hph hcnt => exact h.next_of_meas1 hp ht h0 hlt hph hcnt
  | dis2 h0 hlt hph hrem hs1 => exact h.next_of_dis2 hp ht h0 hlt hph hrem hs1
  | meas2 h0 hlt hph hcnt hs1 => exact h.next_of_meas2 hp ht h0 hlt hph hcnt hs1
  | hold h0 hlt hph hcnt => exact h.next_of_hold hp ht h0 hlt hph hcnt
  | disf h0 _ hph hrem => exact h.next_of_disf hp ht h0 hn hph hrem

/-! ### The run -/

omit hp in
/-- The phase of each interval of R231. -/
theorem Stage.phases {n : Nat} {b : Bd} (hp : p.Ok) (h : n < p.k7 → p.Stage n b) :
    (n < p.k1 → b.phase = .debounce) ∧ (p.k1 ≤ n → n < p.k2 → b.phase = .dis1) ∧
      (p.k2 ≤ n → n < p.k3 → b.phase = .meas1) ∧ (p.k3 ≤ n → n < p.k4 → b.phase = .dis2) ∧
      (p.k4 ≤ n → n < p.k5 → b.phase = .meas2) ∧ (p.k5 ≤ n → n < p.k6 → b.phase = .hold) ∧
      (p.k6 ≤ n → n < p.k7 → b.phase = .disf) := by
  have hk := hp.times
  rcases Nat.lt_or_ge n p.k7 with hn | hn
  case inr => exact ⟨by omega, by omega, by omega, by omega, by omega, by omega, by omega⟩
  cases h hn with
  | debounce _ hph _ => exact ⟨fun _ => hph, by omega, by omega, by omega, by omega, by omega, by omega⟩
  | dis1 _ _ hph _ => exact ⟨by omega, fun _ _ => hph, by omega, by omega, by omega, by omega, by omega⟩
  | meas1 _ _ hph _ => exact ⟨by omega, by omega, fun _ _ => hph, by omega, by omega, by omega, by omega⟩
  | dis2 _ _ hph _ _ => exact ⟨by omega, by omega, by omega, fun _ _ => hph, by omega, by omega, by omega⟩
  | meas2 _ _ hph _ _ => exact ⟨by omega, by omega, by omega, by omega, fun _ _ => hph, by omega, by omega⟩
  | hold _ _ hph _ => exact ⟨by omega, by omega, by omega, by omega, by omega, fun _ _ => hph, by omega⟩
  | disf _ _ hph _ => exact ⟨by omega, by omega, by omega, by omega, by omega, by omega, fun _ _ => hph⟩

/-- Every boundary of the run before the return to IDLE. -/
theorem at_of_run (hn : n < p.k7) (h : runTicks (n + 1) p.start = some t) : p.At n t := by
  induction n generalizing t with
  | zero =>
    obtain ⟨u, hu, ht⟩ := runTicks_succ h
    obtain rfl : p.start = u := Option.some.inj hu
    exact At.first hp ht
  | succ n ih =>
    obtain ⟨u, hu, ht⟩ := runTicks_succ h
    exact (ih (by omega) hu).next hp ht hn

/-- The boundary at k7, where BD returns to IDLE and at once takes what is latched on the other line (R224, R225). -/
theorem end_of_run (h : runTicks (p.k7 + 1) p.start = some t) :
    bdRegsKept (p.regsAt p.k7) t ∧ (t.bd.phase = .idle ∨ (t.bd.phase = .debounce ∧ t.bd.line ≠ p.line)) := by
  have hk := hp.times
  obtain ⟨n, hn⟩ : ∃ n, p.k7 = n + 1 := Nat.exists_eq_add_one.mpr (by omega)
  obtain ⟨u, hu, ht⟩ := runTicks_succ h
  have hat : p.At n u := at_of_run hp (by omega) (hn ▸ hu)
  obtain ⟨hph, hrem⟩ : u.bd.phase = .disf ∧ n + u.bd.rem = p.k7 := by
    cases hat.stage with
    | disf _ _ hph hrem => exact ⟨hph, hrem⟩
    | _ => omega
  obtain ⟨hregs, hidle⟩ := tick_of_disf_end ht hph (by omega)
  refine ⟨?_, (phase_of_idleChecked hidle).imp_right fun ⟨hdeb, hpend⟩ => ⟨hdeb, fun hl => ?_⟩⟩
  · rw [regsAt_of_released hp (by omega), ← regsAt_of_released hp (n := n) (by omega)]
    exact bdRegsKept_trans hat.regs hregs
  · exact absurd (hat.not_pending.symm.trans (hl ▸ hpend)) Bool.noConfusion

/-- The registers at every boundary of the run up to the return to IDLE. -/
theorem regs_of_run (hn : n ≤ p.k7) (h : runTicks (n + 1) p.start = some t) : bdRegsKept (p.regsAt n) t := by
  rcases Nat.lt_or_eq_of_le hn with hlt | rfl
  · exact (at_of_run hp hlt h).regs
  · exact (end_of_run hp h).1

omit hp in
/-- From k5 on the FIFO and LAST_SAMPLE are those of the classification. -/
theorem regsAt_classified (h : p.k5 ≤ n) :
    (p.regsAt n).fifo = p.classified.fifo ∧ (p.regsAt n).lastSample = p.classified.lastSample := by
  rw [regsAt, if_neg (by omega)]
  split <;> exact ⟨rfl, rfl⟩

omit hp in
/-- Before k6 PRESS_DURATION is the start's. -/
theorem regsAt_pressDuration (h : n < p.k6) : (p.regsAt n).pressDuration = p.start.pressDuration := by
  rw [regsAt, if_pos h]
  split
  · rfl
  · exact classifySample_pressDuration _ _

end

end Press

/-- R222, R229: what the classification of a present sample records, whether it matches or not. -/
theorem classifySample_some (s : State) (v : Nat) :
    (classifySample s (some v)).lastSample =
        packLastSample (lookupButton s.cfg s.bd.line v (s.cfg.table s.bd.line)).isSome s.bd.line true v ∧
      (classifySample s (some v)).fifo =
        match lookupButton s.cfg s.bd.line v (s.cfg.table s.bd.line) with
        | some b => if s.fifo.length < s.cfg.evtDepth then s.fifo ++ [⟨b, s.bd.line⟩] else s.fifo
        | none => s.fifo := by
  cases hb : lookupButton s.cfg s.bd.line v (s.cfg.table s.bd.line) with
  | none => simp [classifySample, hb]
  | some b =>
    simp only [classifySample, hb, State.pushEvent_lastSample]
    refine ⟨rfl, ?_⟩
    unfold State.pushEvent
    split <;> simp_all

/-- Settles O54: the run's boundaries one after another, each carrying the timeline on, and the registers read off them. -/
theorem pressTimeline : Obligations.PressTimeline := by
  intro s t l x1 x2 d1 d2 h k1 k2 k3 k4 k5 k6 k7 n hwf htwo hserves hk1 hk2 hk3 hk4 hk5 hk6 hk7 hhigh hpass1 hpass2 hh0 hh1
    hheld hreleased hrun
  let p : Press := ⟨s, l, x1, x2, d1, d2, h⟩
  obtain rfl : k1 = p.k1 := hk1
  obtain rfl : k2 = p.k2 := hk2
  obtain rfl : k3 = p.k3 := hk3
  obtain rfl : k4 = p.k4 := hk4
  obtain rfl : k5 = p.k5 := hk5
  obtain rfl : k6 = p.k6 := hk6
  obtain rfl : k7 = p.k7 := hk7
  have hp : p.Ok := ⟨hwf, htwo, hserves, hhigh, hpass1, hpass2, hh0, hh1, hheld, hreleased⟩
  have hk := hp.times
  have hat (hn : n < p.k7) : p.At n t := Press.at_of_run hp hn hrun
  have hregs (hn : n ≤ p.k7) : bdRegsKept (p.regsAt n) t := Press.regs_of_run hp hn hrun
  obtain ⟨hdebounce, hdis1, hmeas1, hdis2, hmeas2, hhold, hdisf⟩ := Press.Stage.phases hp fun hn => (hat hn).stage
  refine ⟨fun hn => (hat hn).line, hdebounce, hdis1, hmeas1, hdis2, hmeas2, hhold, hdisf, ?idle, ?kept, ?absent, ?sample,
    ?pressKept, ?pressed⟩
  case idle =>
    rintro rfl
    exact (Press.end_of_run hp hrun).2
  case kept =>
    intro hn
    obtain ⟨hf, _, hls, _⟩ := hregs (by omega)
    rw [Press.regsAt_of_lt hn] at hf hls
    exact ⟨hf, hls⟩
  case absent =>
    intro h5 h7 hx
    obtain ⟨hf, _, hls, _⟩ := hregs h7
    obtain ⟨hcf, hcls⟩ := Press.regsAt_classified h5
    have hc : p.classified = classifySample p.served none := congrArg (classifySample p.served) hx
    rw [hls, hcls, hf, hcf, hc]
    exact ⟨rfl, rfl⟩
  case sample =>
    intro h5 h7 v hx
    obtain ⟨hf, _, hls, _⟩ := hregs h7
    obtain ⟨hcf, hcls⟩ := Press.regsAt_classified h5
    have hc : p.classified = classifySample p.served (some v) := congrArg (classifySample p.served) hx
    rw [hls, hcls, hf, hcf, hc]
    exact classifySample_some p.served v
  case pressKept =>
    intro hn
    obtain ⟨_, _, _, hpd⟩ := hregs (by omega)
    exact hpd.trans (Press.regsAt_pressDuration hn)
  case pressed =>
    intro h6 h7
    obtain ⟨_, _, _, hpd⟩ := hregs h7
    rw [hpd, Press.regsAt_of_released hp h6]
    rfl

end Sys2Proof.Machine
end

section
/-! SUPPORT. The host commands: the rows of the opcode map as addresses of the decoder, what a read answers, and what a write
of each kind does with its data. -/

namespace Sys2Proof.Machine

/-! ### Rows -/

/-- The word of a row decodes by its OP and ADDR alone (R82, R85). -/
theorem decode_of_masked {w : Word} {op : Bool} {a : BitVec 4} (h : w &&& 0xFF000000#32 = hcWord op a 0) :
    decode w = if op then decodeWrite a (w.setWidth 24) else decodeRead a :=
  (congrArg decode (eq_hcWord_of_masked h)).trans (decode_hcWord op a _)

theorem rowDecodes_of_decodeRead {a : BitVec 4} {i : Instr} (h : decodeRead a = .cmd i) : RowDecodes (hcWord false a 0) i :=
  fun _ hw => (decode_of_masked hw).trans h

theorem rowDecodesWith_of_decodeWrite {a : BitVec 4} {i : Data → Instr} (h : ∀ d, decodeWrite a d = .cmd (i d)) :
    RowDecodesWith (hcWord true a 0) i :=
  fun w hw => (decode_of_masked hw).trans (h (w.setWidth 24))

/-- The reads stand at their registers' addresses (R85). -/
theorem decodeRead_addr (r : Reg) : decodeRead r.addr = .cmd (readOf r) := by cases r <;> rfl

/-! ### Values and their words -/

theorem getLsbD_respWord_ack (ack : Bool) (v : Data) : (respWord ack v).getLsbD 31 = ack := by
  rw [respWord, BitVec.getLsbD_append, if_neg (by decide)]
  cases ack <;> rfl

theorem flagBit_zero_toNat (b : Bool) : (flagBit 0 b).toNat = b.toNat := by cases b <;> rfl

/-- A legal one-bit operand is read back as it was written. -/
theorem flagBit_zero_dataBit {d : Data} (h : d.toNat ≤ 1) : flagBit 0 (dataBit d) = d := by
  apply BitVec.eq_of_toNat_eq
  rw [flagBit_zero_toNat, dataBit_eq h]
  obtain h0 | h1 := Nat.le_one_iff_eq_zero_or_eq_one.mp h
  · simp [h0]
  · simp [h1]

/-- An operand that fits its register is read back as it was written. -/
theorem setWidth_setWidth_of_lt {n : Nat} {d : Data} (h : d.toNat < 2 ^ n) : (d.setWidth n).setWidth 24 = d := by
  apply BitVec.eq_of_toNat_eq
  rw [BitVec.toNat_setWidth, BitVec.toNat_setWidth, Nat.mod_eq_of_lt h, Nat.mod_eq_of_lt d.isLt]

/-! ### Reads -/

/-- R260: every read but RD EVENT only answers its register's value. -/
theorem exec_readOf {r : Reg} (hr : r ≠ .event) (s : State) : exec (readOf r) s = .next (s.readReg r) := by
  cases r
  case event => exact absurd rfl hr
  all_goals rfl

theorem exec_readOf_answers {r : Reg} (hr : r ≠ .event) {s : State} {n : Nat} (h : (s.regValue r).toNat = n) :
    exec (readOf r) s = .next (s.answered (BitVec.ofNat 32 (2 ^ 31 + n))) :=
  (exec_readOf hr s).trans (congrArg Host.Outcome.next (s.readReg_eq r h))

/-- A read's row, and its answer in terms of the state f reads. -/
theorem readRow {r : Reg} (hr : r ≠ .event) {f : State → Nat} (hf : ∀ s : State, (s.regValue r).toNat = f s) :
    RowDecodes (hcWord false r.addr 0) (readOf r) ∧
      ∀ s : State, exec (readOf r) s = .next (s.answered (BitVec.ofNat 32 (2 ^ 31 + f s))) :=
  ⟨rowDecodes_of_decodeRead (decodeRead_addr r), fun s => exec_readOf_answers hr (hf s)⟩

theorem readOf_of_no_target {i : Instr} (h : writeTarget i = none) : ∃ r, i = readOf r := by
  cases i
  case rdHours => exact ⟨.hours, rfl⟩
  case rdMinutes => exact ⟨.minutes, rfl⟩
  case rdHasAlarm => exact ⟨.hasAlarm, rfl⟩
  case rdAlarmEnabled => exact ⟨.alarmEnabled, rfl⟩
  case rdError => exact ⟨.error, rfl⟩
  case rdRegularDim => exact ⟨.regularDim, rfl⟩
  case rdCeilingDim => exact ⟨.ceilingDim, rfl⟩
  case rdRefreshRate => exact ⟨.refreshRate, rfl⟩
  case rdCeilingUp => exact ⟨.ceilingUp, rfl⟩
  case rdStatus => exact ⟨.status, rfl⟩
  case rdEvent => exact ⟨.event, rfl⟩
  case rdLastSample => exact ⟨.lastSample, rfl⟩
  case rdPressDuration => exact ⟨.pressDuration, rfl⟩
  all_goals cases h

/-! ### Writes -/

theorem State.writeClock_of_legal (s : State) {legal : Bool} (h : legal = true) (v : Clock) :
    s.writeClock legal v = { s with clock := v }.answered 0x80000000 := by
  rw [h, s.writeClock_legal]
  rfl

theorem State.writeClock_of_illegal (s : State) {legal : Bool} (h : legal = false) (v : Clock) :
    s.writeClock legal v = s.rejected 4 := by
  rw [h, s.writeClock_illegal]
  rfl

theorem State.writeStatus_of_lt (s : State) {d : Data} (h : d.toNat < 16) :
    s.writeStatus d = { s with status := s.status.clearBits d }.answered 0x80000000 :=
  if_pos ((dataIsStatusClear_iff d).mpr h)

theorem State.writeStatus_of_ge (s : State) {d : Data} (h : 16 ≤ d.toNat) : s.writeStatus d = s.rejected 4 :=
  if_neg fun hclear => absurd ((dataIsStatusClear_iff d).mp hclear) (Nat.not_lt.mpr h)

/-- The Clock State with the data d stored in its register r; the other registers are no part of it. -/
def Clock.store (k : Clock) (d : Data) : Reg → Clock
  | .hours => { k with hours := d.setWidth 7 }
  | .minutes => { k with minutes := d.setWidth 7 }
  | .hasAlarm => { k with hasAlarm := dataBit d }
  | .alarmEnabled => { k with alarmEnabled := dataBit d }
  | .error => { k with error := d.setWidth 8 }
  | .regularDim => { k with regularDim := d.setWidth 7 }
  | .ceilingDim => { k with ceilingDim := d.setWidth 7 }
  | .refreshRate => { k with refreshRate := d.setWidth 18 }
  | .ceilingUp => { k with ceilingUp := dataBit d }
  | .status | .event | .lastSample | .pressDuration => k

/-- R274 to R282: a write of a Clock State register stores the word's DATA there, if it is legal. -/
theorem exec_writeClock {i : Instr} {r : Reg} (hi : writeTarget i = some r) (hr : r.inClock = true) (s : State) :
    exec i s = .next (s.writeClock (dataLegal i) (s.clock.store (fieldData (encode i)) r)) := by
  cases i <;> cases hi
  case wrStatus => cases hr
  all_goals
    rw [encode, fieldData_hcWord]
    rfl

/-- R274 to R283: a write names a Clock State register or STATUS. -/
theorem writeTarget_cases {i : Instr} {r : Reg} (hi : writeTarget i = some r) :
    r.inClock = true ∨ ∃ d, i = .wrStatus d ∧ r = .status := by
  cases i <;> cases hi
  case wrStatus d => exact .inr ⟨d, rfl, rfl⟩
  all_goals exact .inl rfl

theorem exec_writeClock_of_legal {i : Instr} {r : Reg} (hi : writeTarget i = some r) (hr : r.inClock = true)
    (h : dataLegal i = true) (s : State) :
    exec i s = .next ({ s with clock := s.clock.store (fieldData (encode i)) r }.answered 0x80000000) := by
  rw [exec_writeClock hi hr, s.writeClock_of_legal h]

theorem exec_wrStatus_of_lt {d : Data} (h : d.toNat < 16) (s : State) :
    exec (.wrStatus d) s = .next ({ s with status := s.status.clearBits d }.answered 0x80000000) :=
  congrArg Host.Outcome.next (s.writeStatus_of_lt h)

/-- A read has no data that could be illegal (R84). -/
theorem dataLegal_readOf (r : Reg) : dataLegal (readOf r) = true := by cases r <;> rfl

/-- R83, R260: illegal data is rejected with cause 4, whatever the register. -/
theorem exec_of_illegal {i : Instr} (h : dataLegal i = false) (s : State) : exec i s = .next (s.rejected 4) := by
  cases hi : writeTarget i with
  | none =>
    obtain ⟨r, rfl⟩ := readOf_of_no_target hi
    exact absurd ((dataLegal_readOf r).symm.trans h) (by decide)
  | some r =>
    rcases writeTarget_cases hi with hr | ⟨d, rfl, _⟩
    · rw [exec_writeClock hi hr, s.writeClock_of_illegal h]
    · exact congrArg Host.Outcome.next (s.writeStatus_of_ge (Nat.not_lt.mp (of_decide_eq_false h)))

/-- R276, R277, R282: a one-bit register takes 1 for true and 0 for false; upd writes it. -/
theorem exec_flag_of_le {i : Instr} {s : State} {d : Data} {upd : Bool → Clock}
    (h : exec i s = .next (s.writeClock (dataAtMost 1 d) (upd (dataBit d)))) (hd : d.toNat ≤ 1) :
    exec i s = .next ({ s with clock := upd (decide (d.toNat = 1)) }.answered 0x80000000) := by
  rw [h, s.writeClock_of_legal ((dataAtMost_iff 1 d).mpr hd), dataBit_eq hd]

end Sys2Proof.Machine
end

section
/-! PROOFS. O13, O18, O19 and O22: the reads of the Clock State, and the writes of the flags, of ERROR and of STATUS. -/

namespace Sys2Proof.Machine

theorem rightIcons_congr (c : Config) {e e' : BitVec 8} (h : clamp15 e.toNat = clamp15 e'.toNat) :
    rightIcons c e = rightIcons c e' := by
  simp only [rightIcons, h]

/-- R106: every code of 15 or more is shown as 15. -/
theorem rightIcons_of_ge (c : Config) {e : BitVec 8} (h : 15 ≤ e.toNat) : rightIcons c e = rightIcons c 15 :=
  rightIcons_congr c (Nat.min_eq_right h)

/-- Settles O13: each read answers its register, whose value is that of the Clock State's field. -/
theorem clockReadsAnswerTheRegister : Obligations.ClockReadsAnswerTheRegister := by
  have wide {n : Nat} (h : n ≤ 24) (x : BitVec n) : (x.setWidth 24).toNat = x.toNat := BitVec.toNat_setWidth_of_le h
  obtain ⟨errorRow, errorRead⟩ := readRow (r := .error) (by decide) fun s => wide (by decide) s.clock.error
  obtain ⟨rateRow, rateRead⟩ := readRow (r := .refreshRate) (by decide) fun s => wide (by decide) s.clock.refreshRate
  refine ⟨readRow (r := .hours) (by decide) fun s => wide (by decide) s.clock.hours,
    readRow (r := .minutes) (by decide) fun s => wide (by decide) s.clock.minutes,
    readRow (r := .hasAlarm) (by decide) fun s => flagBit_zero_toNat s.clock.hasAlarm,
    readRow (r := .alarmEnabled) (by decide) fun s => flagBit_zero_toNat s.clock.alarmEnabled,
    ⟨errorRow, errorRead, fun c => rightIcons_of_ge c (by decide)⟩,
    readRow (r := .regularDim) (by decide) fun s => wide (by decide) s.clock.regularDim,
    readRow (r := .ceilingDim) (by decide) fun s => wide (by decide) s.clock.ceilingDim,
    ⟨rateRow, rateRead, fun s hs => ?_⟩,
    readRow (r := .ceilingUp) (by decide) fun s => flagBit_zero_toNat s.clock.ceilingUp,
    exec_readOf_answers (r := .hours) (n := 88) (by decide) rfl,
    exec_readOf_answers (r := .minutes) (n := 88) (by decide) rfl,
    exec_readOf_answers (r := .hasAlarm) (n := 0) (by decide) rfl,
    exec_readOf_answers (r := .regularDim) (n := 50) (by decide) rfl,
    exec_readOf_answers (r := .ceilingDim) (n := 50) (by decide) rfl,
    exec_readOf_answers (r := .refreshRate) (n := 100) (by decide) rfl,
    exec_readOf_answers (r := .ceilingUp) (n := 0) (by decide) rfl⟩
  obtain ⟨_, ⟨_, _, _, _, hrate, _⟩, _⟩ := hs
  omega

/-- Settles O18: 0 and 1 are the legal values of the three registers, and their low bit says which it is. -/
theorem flagWritesStoreOrReject : Obligations.FlagWritesStoreOrReject :=
  ⟨⟨rowDecodesWith_of_decodeWrite (a := 0x2) fun _ => rfl,
      fun s _ => exec_flag_of_le (upd := fun b => { s.clock with hasAlarm := b }) rfl,
      fun s d hd => exec_of_illegal (i := .wrHasAlarm d) (decide_eq_false (Nat.not_le.mpr hd)) s⟩,
    ⟨rowDecodesWith_of_decodeWrite (a := 0x3) fun _ => rfl,
      fun s _ => exec_flag_of_le (upd := fun b => { s.clock with alarmEnabled := b }) rfl,
      fun s d hd => exec_of_illegal (i := .wrAlarmEnabled d) (decide_eq_false (Nat.not_le.mpr hd)) s⟩,
    ⟨rowDecodesWith_of_decodeWrite (a := 0x8) fun _ => rfl,
      fun s _ => exec_flag_of_le (upd := fun b => { s.clock with ceilingUp := b }) rfl,
      fun s d hd => exec_of_illegal (i := .wrCeilingUp d) (decide_eq_false (Nat.not_le.mpr hd)) s⟩⟩

/-- Settles O19: the legal values are those of eight bits, and the icons see only the clamped code. -/
theorem errorWriteStoresRaw : Obligations.ErrorWriteStoresRaw := by
  refine ⟨rowDecodesWith_of_decodeWrite (a := 0x4) fun _ => rfl, fun s d hd => ?_,
    fun s d hd => exec_of_illegal (i := .wrError d) (decide_eq_false (Nat.not_le.mpr hd)) s, fun c _ => rightIcons_of_ge c⟩
  rw [BitVec.ofNat_toNat]
  exact congrArg _ (s.writeClock_of_legal ((dataAtMost_iff 255 d).mpr hd) _)

/-- Settles O22: data below 16 is legal and clears by its bits; 0x11 is not, so BADCMD is set by the rejection. -/
theorem statusWriteClearsOnOnes : Obligations.StatusWriteClearsOnOnes := by
  refine ⟨rowDecodesWith_of_decodeWrite (a := 0x9) fun _ => rfl, fun s d hd => ?_,
    fun s d hd => exec_of_illegal (i := .wrStatus d) (decide_eq_false (Nat.not_lt.mpr hd)) s,
    fun s => ⟨_, exec_of_illegal rfl s, rfl⟩⟩
  exact ⟨{ s with status := s.status.clearBits d }, exec_wrStatus_of_lt hd s, rfl, rfl, rfl, rfl, rfl, rfl⟩

end Sys2Proof.Machine
end

section
/-! PROOFS. O23 and O24: the frame of a command (R284), and the Clock State registers as cells that the host alone writes
(R285). -/

namespace Sys2Proof.Machine

section
variable {i : Instr} {r : Reg} {s t : State}

/-! ### What a command may touch -/

/-- t is s after a command answered with this ACK bit (R284): at most the Clock State, STATUS and the FIFO differ, and one
response is added. -/
def CommandWrites (s t : State) (ack : Bool) : Prop :=
  ∃ k st f w, t = { s with clock := k, status := st, fifo := f }.answered w ∧ w.getLsbD 31 = ack

theorem exec_rdEvent (s : State) : exec .rdEvent s = .next (s.readReg .event).popEvent := rfl

/-- R260, R284: every command completes; what it may touch, and its ACK bit. -/
theorem exec_commandWrites (i : Instr) (s : State) : ∃ t, exec i s = .next t ∧ CommandWrites s t (dataLegal i) := by
  cases hl : dataLegal i with
  | false => exact ⟨_, exec_of_illegal hl s, s.clock, _, s.fifo, 0, rfl, rfl⟩
  | true =>
    cases hi : writeTarget i with
    | none =>
      obtain ⟨r, rfl⟩ := readOf_of_no_target hi
      have hack := getLsbD_respWord_ack true (s.regValue r)
      by_cases hr : r = .event
      · subst hr
        exact ⟨_, exec_rdEvent s, s.clock, s.status, s.fifo.tail, _, rfl, hack⟩
      · exact ⟨_, exec_readOf hr s, s.clock, s.status, s.fifo, _, rfl, hack⟩
    | some r =>
      rcases writeTarget_cases hi with hr | ⟨d, rfl, _⟩
      · exact ⟨_, exec_writeClock_of_legal hi hr hl s, _, s.status, s.fifo, _, rfl, rfl⟩
      · exact ⟨_, exec_wrStatus_of_lt (of_decide_eq_true hl) s, s.clock, _, s.fifo, _, rfl, rfl⟩

/-! ### What each kind of command keeps -/

theorem readOf_eq_rdEvent_iff : readOf r = .rdEvent ↔ r = .event := by cases r <;> simp [readOf]

theorem exec_read_keeps (hi : writeTarget i = none) (h : exec i s = .next t) :
    t.clock = s.clock ∧ t.status = s.status ∧ (i ≠ .rdEvent → t.fifo = s.fifo) ∧ (i = .rdEvent → t.fifo = s.fifo.tail) := by
  obtain ⟨r, rfl⟩ := readOf_of_no_target hi
  by_cases hr : r = .event
  · subst hr
    obtain rfl := Host.Outcome.next.inj ((exec_rdEvent s).symm.trans h)
    exact ⟨rfl, rfl, absurd rfl, fun _ => rfl⟩
  · obtain rfl := Host.Outcome.next.inj ((exec_readOf hr s).symm.trans h)
    exact ⟨rfl, rfl, fun _ => rfl, fun he => absurd (readOf_eq_rdEvent_iff.mp he) hr⟩

/-- Storing in a register of the Clock State leaves the value of every other register. -/
theorem regValue_store_of_ne {q : Reg} (h : q ≠ r) (s : State) (d : Data) :
    ({ s with clock := s.clock.store d r } : State).regValue q = s.regValue q := by
  cases r <;> cases q
  case hours.hours | minutes.minutes | hasAlarm.hasAlarm | alarmEnabled.alarmEnabled | error.error |
      regularDim.regularDim | ceilingDim.ceilingDim | refreshRate.refreshRate | ceilingUp.ceilingUp =>
    exact absurd rfl h
  all_goals rfl

/-- A change of STATUS leaves the value of every other register. -/
theorem regValue_setStatus_of_ne {q : Reg} (h : q ≠ .status) (s : State) (v : Status) :
    (s.setStatus v).regValue q = s.regValue q := by
  cases q
  case status => exact absurd rfl h
  all_goals rfl

theorem exec_accepted_keeps (hi : writeTarget i = some r) (hl : dataLegal i = true) (h : exec i s = .next t) :
    t.fifo = s.fifo ∧ (r ≠ .status → t.status = s.status) ∧ ∀ q, q ≠ r → t.regValue q = s.regValue q := by
  rcases writeTarget_cases hi with hr | ⟨d, rfl, rfl⟩
  · obtain rfl := Host.Outcome.next.inj ((exec_writeClock_of_legal hi hr hl s).symm.trans h)
    exact ⟨rfl, fun _ => rfl, fun q hq => regValue_store_of_ne hq s _⟩
  · obtain rfl := Host.Outcome.next.inj ((exec_wrStatus_of_lt (of_decide_eq_true hl) s).symm.trans h)
    exact ⟨rfl, absurd rfl, fun q hq => regValue_setStatus_of_ne hq s _⟩

theorem exec_rejected_keeps (hl : dataLegal i = false) (h : exec i s = .next t) : t.clock = s.clock ∧ t.fifo = s.fifo ∧
    t.status = { s.status with badcmd := true, cause := if s.status.badcmd then s.status.cause else 4 } := by
  obtain rfl := Host.Outcome.next.inj ((exec_of_illegal hl s).symm.trans h)
  exact ⟨rfl, rfl, rfl⟩

/-! ### A Clock State register as a cell -/

/-- The value of a Clock State register depends on the Clock State alone. -/
theorem regValue_congr (hr : r.inClock = true) (h : t.clock = s.clock) : t.regValue r = s.regValue r := by
  cases r
  case status | event | lastSample | pressDuration => cases hr
  all_goals simp only [State.regValue, h]

/-- A Clock State register holds the legal DATA stored in it. -/
theorem regValue_store_self (hi : writeTarget i = some r) (hr : r.inClock = true) (hl : dataLegal i = true) (s : State) :
    ({ s with clock := s.clock.store (fieldData (encode i)) r } : State).regValue r = fieldData (encode i) := by
  cases i <;> cases hi
  case wrStatus => cases hr
  case wrHasAlarm | wrAlarmEnabled | wrCeilingUp =>
    rw [encode, fieldData_hcWord]
    exact flagBit_zero_dataBit (of_decide_eq_true hl)
  all_goals
    rw [encode, fieldData_hcWord]
    simp only [dataLegal, Bool.and_eq_true, decide_eq_true_iff] at hl
    exact setWidth_setWidth_of_lt (by omega)

theorem exec_stores (hi : writeTarget i = some r) (hr : r.inClock = true) (hl : dataLegal i = true)
    (h : exec i s = .next t) : t.regValue r = fieldData (encode i) := by
  obtain rfl := Host.Outcome.next.inj ((exec_writeClock_of_legal hi hr hl s).symm.trans h)
  exact regValue_store_self hi hr hl s

/-- A command that changes a Clock State register is an accepted write of it. -/
theorem writes_of_exec_regValue_ne (hr : r.inClock = true) (h : exec i s = .next t) (hne : t.regValue r ≠ s.regValue r) :
    writeTarget i = some r ∧ dataLegal i = true := by
  cases hl : dataLegal i with
  | false => exact absurd (regValue_congr hr (exec_rejected_keeps hl h).1) hne
  | true =>
    refine ⟨?_, rfl⟩
    cases hi : writeTarget i with
    | none => exact absurd (regValue_congr hr (exec_read_keeps hi h).1) hne
    | some q =>
      obtain ⟨_, _, hkept⟩ := exec_accepted_keeps hi hl h
      by_contra hq
      exact hne (hkept r fun hrq => hq (congrArg some hrq.symm))

theorem tick_clock (h : tick s = .next t) : t.clock = s.clock := by
  obtain ⟨m, r, p, _, _, _, rfl⟩ := tick_next h
  exact finishTick_clock s m r p

/-- R285: outside RESET, a step that changes a Clock State register runs an accepted write of it. -/
theorem writes_of_step_regValue_ne (hr : r.inClock = true) (hreset : s.resetAsserted = false) (h : step s = .next t)
    (hne : t.regValue r ≠ s.regValue r) : ∃ w rest i, s.nextCmd = some (w, rest) ∧ decode w = .cmd i ∧
      writeTarget i = some r ∧ dataLegal i = true := by
  rcases step_cases s with ⟨hreset', _⟩ | ⟨_, w, rest, hc, hs⟩ | ⟨_, _, hs⟩
  · exact absurd (hreset.symm.trans hreset') (by decide)
  · have hcmds : (s.setCmds rest).regValue r = s.regValue r := regValue_congr hr rfl
    rcases execWord_cases w (s.setCmds rest) with ⟨i, hw, he⟩ | ⟨a, _, he⟩
    · exact ⟨w, rest, i, hc, hw, writes_of_exec_regValue_ne hr (he.symm.trans (hs.symm.trans h)) (hcmds ▸ hne)⟩
    · obtain rfl := Host.Outcome.next.inj ((hs.trans he).symm.trans h)
      exact (hne (regValue_congr hr rfl)).elim
  · exact absurd (regValue_congr hr (tick_clock (hs.symm.trans h))) hne

end

/-! ### The statements -/

/-- Settles O23: what every command may touch, then what its kind leaves of it. -/
theorem commandFrame : Obligations.CommandFrame := by
  intro i s
  obtain ⟨t, h, k, st, f, w, rfl, hack⟩ := exec_commandWrites i s
  refine ⟨_, h, rfl, rfl, rfl, rfl, rfl, rfl, rfl, rfl, rfl, ⟨w, rfl, hack⟩, fun hi => exec_read_keeps hi h, fun hi hl => ?_,
    fun hl => exec_rejected_keeps hl h⟩
  obtain ⟨r, hr⟩ := Option.ne_none_iff_exists'.mp hi
  obtain ⟨hfifo, hstatus, hkept⟩ := exec_accepted_keeps hr hl h
  exact ⟨hfifo, fun hne => hstatus fun he => hne (he ▸ hr), fun q hne => hkept q fun he => hne (he ▸ hr)⟩

/-- Settles O24: the store, the step's frame on the Clock State, and the read. -/
theorem writtenValueStaysUntilTheNextWrite : Obligations.WrittenValueStaysUntilTheNextWrite := by
  refine ⟨fun i r s t => exec_stores, fun s t r => writes_of_step_regValue_ne, fun s r hr => exec_readOf_answers ?_ rfl⟩
  rintro rfl
  cases hr

end Sys2Proof.Machine
end

section
/-! PROOFS. O2 and O9: which cause rejects a word (R301, R302), and what a rejection does (R300), the same for a word that does
not decode and for illegal data. -/

namespace Sys2Proof.Machine

/-! ### The decoder's rejections -/

/-- R301: addresses 0xD to 0xF are mapped to no register. -/
theorem decodeRead_of_ge {a : BitVec 4} (h : 13 ≤ a.toNat) : decodeRead a = .reject .badAddr := by
  unfold decodeRead
  split
  case h_14 => rfl
  all_goals omega

theorem decodeWrite_of_ge {a : BitVec 4} (h : 13 ≤ a.toNat) (d : Data) : decodeWrite a d = .reject .badAddr := by
  unfold decodeWrite
  split
  case h_14 => rfl
  all_goals omega

/-- R301: EVENT, LAST_SAMPLE and PRESS_DURATION, at 0xA to 0xC, are read-only. -/
theorem decodeWrite_of_readOnly {a : BitVec 4} (hlo : 10 ≤ a.toNat) (hhi : a.toNat ≤ 12) (d : Data) :
    decodeWrite a d = .reject .roWrite := by
  have ha : a.toNat = 10 ∨ a.toNat = 11 ∨ a.toNat = 12 := by omega
  unfold decodeWrite
  rcases ha with ha | ha | ha <;> (rw [ha]; rfl)

/-- R82: a word with RSV = 0 decodes by its OP, ADDR and DATA. -/
theorem decode_of_fieldRsv_eq_zero {w : Word} (h : fieldRsv w = 0) :
    decode w = if fieldOp w then decodeWrite (fieldAddr w) (fieldData w) else decodeRead (fieldAddr w) :=
  if_neg (not_not_intro h)

theorem decode_of_addr_ge {w : Word} (hrsv : fieldRsv w = 0) (h : 13 ≤ (fieldAddr w).toNat) :
    decode w = .reject .badAddr := by
  rw [decode_of_fieldRsv_eq_zero hrsv, decodeWrite_of_ge h, decodeRead_of_ge h, ite_self]

theorem decode_of_readOnly_write {w : Word} (hrsv : fieldRsv w = 0) (hop : fieldOp w = true)
    (hlo : 10 ≤ (fieldAddr w).toNat) (hhi : (fieldAddr w).toNat ≤ 12) : decode w = .reject .roWrite := by
  rw [decode_of_fieldRsv_eq_zero hrsv, if_pos hop, decodeWrite_of_readOnly hlo hhi]

/-! ### The code of a rejected word -/

theorem rejectCode_of_reject {w : Word} {a : Cause} (h : decode w = .reject a) : rejectCode w = some (causeCode a) := by
  rw [rejectCode, h]

theorem rejectCode_of_illegal {w : Word} {i : Instr} (h : decode w = .cmd i) (hl : dataLegal i = false) :
    rejectCode w = some 4 := by
  rw [rejectCode, h]
  exact if_neg (Bool.eq_false_iff.mp hl)

/-- The two ways a word is rejected: by the decoder, or as a command with illegal data. -/
theorem rejectCode_cases {w : Word} {c : BitVec 4} (h : rejectCode w = some c) :
    (∃ a, decode w = .reject a ∧ c = causeCode a) ∨
      (∃ i, decode w = .cmd i ∧ dataLegal i = false ∧ c = causeCode .badValue) := by
  cases hw : decode w with
  | reject a => exact .inl ⟨a, rfl, Option.some.inj (h.symm.trans (rejectCode_of_reject hw))⟩
  | cmd i =>
    cases hl : dataLegal i with
    | false => exact .inr ⟨i, rfl, hl, Option.some.inj (h.symm.trans (rejectCode_of_illegal hw hl))⟩
    | true =>
      rw [rejectCode, hw] at h
      exact absurd ((if_pos hl).symm.trans h) nofun

/-- R301: the codes are 1 to 4. -/
theorem causeCode_bounds (a : Cause) : 1 ≤ (causeCode a).toNat ∧ (causeCode a).toNat ≤ 4 := by
  cases a <;> decide

theorem rejectCode_bounds {w : Word} {c : BitVec 4} (h : rejectCode w = some c) : 1 ≤ c.toNat ∧ c.toNat ≤ 4 := by
  rcases rejectCode_cases h with ⟨a, _, rfl⟩ | ⟨_, _, _, rfl⟩
  · exact causeCode_bounds a
  · exact causeCode_bounds .badValue

/-! ### What a rejection does -/

/-- R300: both ways of being rejected come to the same state. -/
theorem execWord_of_rejectCode {w : Word} {c : BitVec 4} (h : rejectCode w = some c) (s : State) :
    execWord w s = .next (s.rejected c) := by
  rcases rejectCode_cases h with ⟨a, hw, rfl⟩ | ⟨i, hw, hl, rfl⟩
  · rw [execWord, hw]
    exact congrArg Host.Outcome.next (s.reject_eq_rejected a)
  · rw [execWord, hw]
    exact exec_of_illegal hl s

/-- R67 step (1): outside RESET, the step executes the next command on the state that has it taken off. -/
theorem step_of_nextCmd {s : State} {w : Word} {rest : List (Nat × Word)} (hr : s.resetAsserted = false)
    (hc : s.nextCmd = some (w, rest)) : step s = execWord w (s.setCmds rest) := by
  unfold step stepOnce
  simp [hr, hc]

theorem step_of_rejectCode {s : State} {w : Word} {rest : List (Nat × Word)} {c : BitVec 4} (hr : s.resetAsserted = false)
    (hc : s.nextCmd = some (w, rest)) (h : rejectCode w = some c) : step s = .next ((s.setCmds rest).rejected c) :=
  (step_of_nextCmd hr hc).trans (execWord_of_rejectCode h _)

/-- R302: of two rejections with nothing cleared in between, the second leaves the cause alone. -/
theorem State.rejected_rejected_cause (s : State) (c₁ c₂ : BitVec 4) :
    ((s.rejected c₁).rejected c₂).status.cause = if s.status.badcmd then s.status.cause else c₁ := rfl

/-- R302: the first two commands of a boundary, both rejected, are rejected one after the other. -/
theorem run_two_rejections {s : State} {w₁ w₂ : Word} {rest : List (Nat × Word)} {c₁ c₂ : BitVec 4}
    (hr : s.resetAsserted = false) (hcmds : s.world.cmds = (s.world.now, w₁) :: (s.world.now, w₂) :: rest)
    (h₁ : rejectCode w₁ = some c₁) (h₂ : rejectCode w₂ = some c₂) :
    Host.Core.run Sys2Proof.core 2 s = .next (((s.setCmds rest).rejected c₁).rejected c₂) := by
  have hc₁ : s.nextCmd = some (w₁, (s.world.now, w₂) :: rest) := by
    rw [State.nextCmd, hcmds, takeCmd_cons_now]
  have hr₂ : ((s.setCmds ((s.world.now, w₂) :: rest)).rejected c₁).resetAsserted = false := hr
  have hc₂ : ((s.setCmds ((s.world.now, w₂) :: rest)).rejected c₁).nextCmd = some (w₂, rest) :=
    takeCmd_cons_now s.world.now w₂ rest
  rw [run_succ 1 (step_of_rejectCode hr hc₁ h₁), run_succ 0 (step_of_rejectCode hr₂ hc₂ h₂)]
  rfl

/-! ### The statements -/

/-- Settles O2: the decoder's tests stand in the order of the causes, and a second rejection finds BADCMD set. -/
theorem rejectionCausePriority : Obligations.RejectionCausePriority := by
  refine ⟨fun w h => rejectCode_of_reject (if_pos h), fun w hrsv h => rejectCode_of_reject (decode_of_addr_ge hrsv h),
    fun w hrsv hop hlo hhi => rejectCode_of_reject (decode_of_readOnly_write hrsv hop hlo hhi),
    fun w i => rejectCode_of_illegal, by decide, by decide, by decide, by decide, ?_⟩
  intro s w₁ w₂ rest c₁ c₂ hr hcmds h₁ h₂
  exact ⟨_, run_two_rejections hr hcmds h₁ h₂, rfl, (s.setCmds rest).rejected_rejected_cause c₁ c₂⟩

/-- Settles O9: the step is the rejection of R300, whose fields are read off. -/
theorem rejectionChangesOnlyStatus : Obligations.RejectionChangesOnlyStatus := by
  intro s w rest c hr hc h
  obtain ⟨hlo, hhi⟩ := rejectCode_bounds h
  exact ⟨hlo, hhi, _, step_of_rejectCode hr hc h, rfl, rfl, rfl, rfl, rfl⟩

end Sys2Proof.Machine
end

section
/-! PROOFS. O3 to O6: the encoder and the decoder are each other's inverse but for a read's DATA (R82, R84, R85), and so are
the assembler's operations and the disassembly (R87, R89). -/

namespace Sys2Proof.Machine

/-! ### The encoder inverts the decoder -/

theorem decode_encode (i : Instr) : decode (encode i) = .cmd i := by
  cases i
  all_goals exact decode_hcWord _ _ _

/-- R85: a read is the word of its address, DATA 0. -/
theorem encode_of_decodeRead {a : BitVec 4} {i : Instr} (h : decodeRead a = .cmd i) : encode i = hcWord false a 0 := by
  unfold decodeRead at h
  split at h
  case h_14 => cases h
  all_goals
    next ha =>
    cases h
    exact congrArg (hcWord false · 0) (BitVec.eq_of_toNat_eq ha.symm)

/-- R85: a write is the word of its address and its operand. -/
theorem encode_of_decodeWrite {a : BitVec 4} {d : Data} {i : Instr} (h : decodeWrite a d = .cmd i) :
    encode i = hcWord true a d := by
  unfold decodeWrite at h
  split at h
  case h_11 | h_12 | h_13 | h_14 => cases h
  all_goals
    next ha =>
    cases h
    exact congrArg (hcWord true · d) (BitVec.eq_of_toNat_eq ha.symm)

/-- R84: the word of a command again, its DATA cleared where the command is a read. -/
theorem encode_of_decode {w : Word} {i : Instr} (h : decode w = .cmd i) :
    encode i = if w.getLsbD 31 then w else w &&& 0xFF000000#32 := by
  have hrsv := fieldRsv_of_decode h
  have hw := eq_hcWord hrsv
  rw [decode_of_fieldRsv_eq_zero hrsv] at h
  change encode i = if fieldOp w then w else w &&& 0xFF000000#32
  cases hop : fieldOp w with
  | true =>
    rw [hop] at h hw
    rw [encode_of_decodeWrite h, if_pos rfl]
    exact hw.symm
  | false =>
    rw [hop] at h hw
    rw [encode_of_decodeRead h, if_neg Bool.false_ne_true]
    exact ((congrArg (· &&& 0xFF000000#32) hw).trans (Laws.TableRow.hcWord_masked _ _ _)).symm

/-! ### The assembler's operations -/

theorem assembleOp_opOfInstr (i : Instr) : assembleOp (opOfInstr i) = encode i := by
  cases i
  all_goals rfl

theorem disassemble_of_cmd {w : Word} {i : Instr} (h : decode w = .cmd i) : disassemble w = opOfInstr i := by
  rw [disassemble, h]

theorem disassemble_of_reject {w : Word} {c : Cause} (h : decode w = .reject c) : disassemble w = .word w := by
  rw [disassemble, h]

/-! ### The statements -/

/-- Settles O3: the word of a command is of format HC, and its address and OP select the command again. -/
theorem encodeThenDecodeIsIdentity : Obligations.EncodeThenDecodeIsIdentity := decode_encode

/-- Settles O4: the decoder's two halves read OP and ADDR, which the encoder writes back. -/
theorem decodeThenEncodeRecoversTheWord : Obligations.DecodeThenEncodeRecoversTheWord := fun _ _ => encode_of_decode

/-- Settles O5: assembling what a word disassembles to is encoding what it decodes to. -/
theorem disassemblyInvertsAssembly : Obligations.DisassemblyInvertsAssembly := by
  refine ⟨fun i => ⟨disassemble_of_cmd (decode_encode i), assembleOp_opOfInstr i⟩, fun w i h => ?_, fun w c h => ?_⟩
  · rw [disassemble_of_cmd h, assembleOp_opOfInstr, encode_of_decode h]
  · rw [disassemble_of_reject h]
    exact ⟨rfl, rfl⟩

/-- Settles O6: the decoder evaluated on the eight words. -/
theorem sampleWordsDecode : Obligations.SampleWordsDecode := by
  unfold Obligations.SampleWordsDecode
  decide

end Sys2Proof.Machine
end

section
/-! PROOFS. O55: the boundary before which BD cannot classify next never moves back while RESET stays away (R340). -/

namespace Sys2Proof.Machine

/-! ### Ticks to the next classification -/

/-- The ticks that must pass between a measurement's entry and the tick that can classify: with two passes, one poll of the
first and the discharge before the second. -/
def passTicks (c : Config) : Nat := if c.doubleSample then 1 + c.tDischarge else 0

/-- The ticks that must pass from the entry of DEBOUNCE. -/
def serviceTicks (c : Config) : Nat := c.tDebounce + c.tDischarge + passTicks c

/-- The least number of ticks that pass before BD can be in the last tick of its last pass: each phase lasts its count out, a
poll or a hold at least one tick. -/
def ticksToClassify (c : Config) (b : Bd) : Nat :=
  match b.phase with
  | .idle => 1 + serviceTicks c
  | .debounce => b.rem + c.tDischarge + passTicks c
  | .dis1 => b.rem + passTicks c
  | .meas1 => passTicks c
  | .dis2 => b.rem
  | .meas2 => 0
  | .hold => 1 + c.tDischarge + serviceTicks c
  | .disf => b.rem + serviceTicks c

/-- The earliest boundary at which BD can classify. -/
def State.earliestClassify (s : State) : Nat := s.world.now + ticksToClassify s.cfg s.bd

section
variable {c : Config} {b : Bd}

theorem ticksToClassify_of_idle (h : b.phase = .idle) : ticksToClassify c b = 1 + serviceTicks c := by
  rw [ticksToClassify, h]
theorem ticksToClassify_of_debounce (h : b.phase = .debounce) :
    ticksToClassify c b = b.rem + c.tDischarge + passTicks c := by rw [ticksToClassify, h]
theorem ticksToClassify_of_dis1 (h : b.phase = .dis1) : ticksToClassify c b = b.rem + passTicks c := by
  rw [ticksToClassify, h]
theorem ticksToClassify_of_meas1 (h : b.phase = .meas1) : ticksToClassify c b = passTicks c := by rw [ticksToClassify, h]
theorem ticksToClassify_of_dis2 (h : b.phase = .dis2) : ticksToClassify c b = b.rem := by rw [ticksToClassify, h]
theorem ticksToClassify_of_meas2 (h : b.phase = .meas2) : ticksToClassify c b = 0 := by rw [ticksToClassify, h]
theorem ticksToClassify_of_hold (h : b.phase = .hold) : ticksToClassify c b = 1 + c.tDischarge + serviceTicks c := by
  rw [ticksToClassify, h]
theorem ticksToClassify_of_disf (h : b.phase = .disf) : ticksToClassify c b = b.rem + serviceTicks c := by
  rw [ticksToClassify, h]

end

section
variable {s t : State}

theorem ticksToClassify_of_inLastPass (h : inLastPass s = true) : ticksToClassify s.cfg s.bd = 0 := by
  rcases inLastPass_cases h with hp | ⟨hp, hone⟩
  · exact ticksToClassify_of_meas2 hp
  · rw [ticksToClassify_of_meas1 hp, passTicks, hone]
    rfl

/-- After an idle check BD has at least a whole service before it. -/
theorem ticksToClassify_of_idleChecked (h : idleChecked s t) : serviceTicks s.cfg ≤ ticksToClassify s.cfg t.bd := by
  have hdebounce (hp : t.bd.phase = .debounce) (hr : t.bd.rem = s.cfg.tDebounce) :
      serviceTicks s.cfg ≤ ticksToClassify s.cfg t.bd := by
    rw [ticksToClassify_of_debounce hp, hr]
    exact le_rfl
  obtain ⟨h0, h1, hnone⟩ := h
  cases hp0 : ((edgeDetect s).edge .l0).pending with
  | true =>
    obtain ⟨hp, _, hr, _⟩ := h0 hp0
    exact hdebounce hp hr
  | false =>
    cases hp1 : ((edgeDetect s).edge .l1).pending with
    | true =>
      obtain ⟨hp, _, hr, _⟩ := h1 hp0 hp1
      exact hdebounce hp hr
    | false =>
      rw [ticksToClassify_of_idle (hnone hp0 hp1).1]
      exact Nat.le_add_left _ _

/-! ### A tick takes at most one of them -/

/-- A count takes one tick at a time, whatever it counts. -/
theorem ticksToClassify_pred (c : Config) (b : Bd) :
    ticksToClassify c b ≤ ticksToClassify c { b with rem := b.rem - 1 } + 1 := by
  unfold ticksToClassify
  cases b.phase <;> dsimp only <;> omega

theorem ticksToClassify_tick (h : tick s = .next t) : ticksToClassify s.cfg s.bd ≤ ticksToClassify s.cfg t.bd + 1 := by
  have hmove {b : Bd} (hm : BdMoves s t b) (hb : ticksToClassify s.cfg s.bd ≤ ticksToClassify s.cfg b + 1) :
      ticksToClassify s.cfg s.bd ≤ ticksToClassify s.cfg t.bd + 1 := by rw [hm.bd]; exact hb
  cases hp : s.bd.phase with
  | idle =>
    have hi := ticksToClassify_of_idleChecked (tick_of_idle h hp).2.1
    rw [ticksToClassify_of_idle hp]
    omega
  | debounce =>
    rcases Nat.lt_or_ge 1 s.bd.rem with hr | hr
    · exact hmove (tick_of_debounce_wait h hp hr) (ticksToClassify_pred _ _)
    · have hs := ticksToClassify_of_debounce (c := s.cfg) hp
      cases hl : s.level s.bd.line with
      | true =>
        refine hmove (tick_of_debounce_high h hp hr hl) ?_
        rw [hs, ticksToClassify_of_dis1 rfl]
        dsimp only
        omega
      | false =>
        have hi := ticksToClassify_of_idleChecked (tick_of_debounce_low h hp hr hl).2
        unfold serviceTicks at hi
        omega
  | dis1 =>
    rcases Nat.lt_or_ge 1 s.bd.rem with hr | hr
    · exact hmove (tick_of_discharge_wait h (.inl hp) hr) (ticksToClassify_pred _ _)
    · refine hmove (tick_of_dis1_end h hp hr) ?_
      rw [ticksToClassify_of_dis1 hp, ticksToClassify_of_meas1 rfl]
      omega
  | meas1 =>
    cases hv : pollSample s.cfg (s.bd.cnt + 1) (s.level s.bd.line) with
    | none => exact hmove (tick_of_poll_none h (.inl hp) hv) (Nat.le_succ _)
    | some v =>
      cases htwo : s.cfg.doubleSample with
      | true =>
        refine hmove (tick_of_firstPass h hp htwo hv) ?_
        rw [ticksToClassify_of_meas1 hp, ticksToClassify_of_dis2 rfl, passTicks, if_pos htwo, Nat.add_comm]
      | false =>
        rw [ticksToClassify_of_inLastPass (by simp [inLastPass, hp, htwo])]
        exact Nat.zero_le _
  | dis2 =>
    rcases Nat.lt_or_ge 1 s.bd.rem with hr | hr
    · exact hmove (tick_of_discharge_wait h (.inr hp) hr) (ticksToClassify_pred _ _)
    · rw [ticksToClassify_of_dis2 hp]
      omega
  | meas2 =>
    rw [ticksToClassify_of_meas2 hp]
    exact Nat.zero_le _
  | hold =>
    obtain ⟨_, _, _, _, _, hlow, hcap, hheld⟩ := tick_of_hold h hp
    have hdisf (ht : t.bd.phase = .disf) (hr : t.bd.rem = s.cfg.tDischarge) :
        ticksToClassify s.cfg s.bd ≤ ticksToClassify s.cfg t.bd + 1 := by
      rw [ticksToClassify_of_hold hp, ticksToClassify_of_disf ht, hr]
      omega
    cases hl : s.level s.bd.line with
    | false =>
      obtain ⟨ht, hr, _⟩ := hlow hl
      exact hdisf ht hr
    | true =>
      by_cases hc : s.bd.cnt + 1 = s.cfg.tHoldMax
      · obtain ⟨ht, hr, _⟩ := hcap hl hc
        exact hdisf ht hr
      · obtain ⟨ht, _⟩ := hheld hl hc
        rw [ticksToClassify_of_hold hp, ticksToClassify_of_hold ht]
        exact Nat.le_succ _
  | disf =>
    rcases Nat.lt_or_ge 1 s.bd.rem with hr | hr
    · exact hmove (tick_of_disf_wait h hp hr) (ticksToClassify_pred _ _)
    · have hi := ticksToClassify_of_idleChecked (tick_of_disf_end h hp hr).2
      rw [ticksToClassify_of_disf hp]
      omega

/-! ### No step moves the earliest boundary back -/

theorem earliestClassify_tick (h : tick s = .next t) : s.earliestClassify ≤ t.earliestClassify := by
  have hle := ticksToClassify_tick h
  have hnow : t.world.now = s.world.now + 1 := by rw [tick_world h]
  unfold State.earliestClassify
  rw [tick_cfg h]
  omega

/-- R284: a command word, accepted or rejected, leaves BD, the boundary and the resets to come. -/
theorem execWord_keeps_bd {w : Word} (h : execWord w s = .next t) :
    t.cfg = s.cfg ∧ t.bd = s.bd ∧ t.world.now = s.world.now ∧ t.world.resets = s.world.resets := by
  rcases execWord_cases w s with ⟨i, _, he⟩ | ⟨a, _, he⟩
  · obtain ⟨u, hu, _, _, _, _, rfl, _⟩ := exec_commandWrites i s
    obtain rfl := Host.Outcome.next.inj ((he.trans hu).symm.trans h)
    exact ⟨rfl, rfl, rfl, rfl⟩
  · obtain rfl := Host.Outcome.next.inj (he.symm.trans h)
    exact ⟨rfl, rfl, rfl, rfl⟩

theorem resetAsserted_of_no_resets (h : s.world.resets = []) : s.resetAsserted = false := by
  rw [State.resetAsserted, h]
  rfl

theorem earliestClassify_step (hr : s.world.resets = []) (h : step s = .next t) :
    s.earliestClassify ≤ t.earliestClassify ∧ t.world.resets = [] := by
  rcases step_cases s with ⟨hreset, _⟩ | ⟨_, w, rest, _, hs⟩ | ⟨_, _, hs⟩
  · exact absurd ((resetAsserted_of_no_resets hr).symm.trans hreset) Bool.false_ne_true
  · obtain ⟨hcfg, hbd, hnow, hresets⟩ := execWord_keeps_bd (hs.symm.trans h)
    refine ⟨?_, hresets.trans hr⟩
    unfold State.earliestClassify
    rw [hcfg, hbd, hnow]
    exact le_rfl
  · have ht := hs.symm.trans h
    exact ⟨earliestClassify_tick ht, by rw [tick_world ht]; exact hr⟩

/-- A run that answers has a first step that answers, for any machine of the host's interface. -/
theorem core_run_succ_next (M : Host.Core) {s t : M.State} {n : Nat} (h : M.run (n + 1) s = .next t) :
    ∃ u, M.step s = .next u ∧ M.run n u = .next t := by
  cases hs : M.step s with
  | next u => exact ⟨u, rfl, (core_run_succ M n hs).symm.trans h⟩
  | fault f => simp [Host.Core.run, hs] at h
  | refused f => simp [Host.Core.run, hs] at h

/-- A run that answers has a first step that answers. -/
theorem run_succ_next {n : Nat} (h : Host.Core.run Sys2Proof.core (n + 1) s = .next t) :
    ∃ u, step s = .next u ∧ Host.Core.run Sys2Proof.core n u = .next t :=
  core_run_succ_next Sys2Proof.core h

theorem earliestClassify_run {n : Nat} (hr : s.world.resets = []) (h : Host.Core.run Sys2Proof.core n s = .next t) :
    s.earliestClassify ≤ t.earliestClassify := by
  induction n generalizing s with
  | zero =>
    obtain rfl := Host.Outcome.next.inj h
    exact le_rfl
  | succ n ih =>
    obtain ⟨u, hu, hrun⟩ := run_succ_next h
    obtain ⟨hle, hru⟩ := earliestClassify_step hr hu
    exact hle.trans (ih hru hrun)

/-! ### The two ends of the interval -/

theorem classifiesNext_cases (h : classifiesNext s = true) : step s = tick s ∧ inLastPass s = true ∧
    ∃ v, pollSample s.cfg (s.bd.cnt + 1) (s.level s.bd.line) = some v := by
  simp only [classifiesNext, State.tickIsNext, Bool.and_eq_true, Bool.not_eq_true', Option.isNone_iff_eq_none,
    Option.isSome_iff_exists] at h
  obtain ⟨⟨⟨hr, hc⟩, hlast⟩, hv⟩ := h
  refine ⟨?_, hlast, hv⟩
  unfold step stepOnce
  simp [hr, hc]

/-- Where BD classifies, the earliest boundary is the current one. -/
theorem earliestClassify_of_classifiesNext (h : classifiesNext s = true) : s.earliestClassify = s.world.now := by
  obtain ⟨_, hlast, _⟩ := classifiesNext_cases h
  rw [State.earliestClassify, ticksToClassify_of_inLastPass hlast, Nat.add_zero]

/-- R340: `T_MIN_PUSH` is the classifying tick and what HOLD has before it. -/
theorem tMinPush_eq (c : Config) : tMinPush c = 1 + (1 + c.tDischarge + serviceTicks c) := by
  unfold tMinPush serviceTicks passTicks
  split
  · omega
  · omega

/-- R340: a tick that classifies enters HOLD, from where the next classification is a whole service away. -/
theorem earliestClassify_after_classify (hs : classifiesNext s = true) (h : step s = .next t) :
    t.earliestClassify = s.world.now + tMinPush s.cfg ∧ t.world.resets = s.world.resets := by
  obtain ⟨htick, hlast, v, hv⟩ := classifiesNext_cases hs
  have ht := htick.symm.trans h
  obtain ⟨_, _, hhold, _⟩ := tick_of_lastPass ht hlast hv
  rw [State.earliestClassify, tick_cfg ht, tick_world ht, ticksToClassify_of_hold hhold, tMinPush_eq]
  exact ⟨Nat.add_assoc _ _ _, rfl⟩

end

/-- Settles O55: the earliest boundary is set by the first classification and never moves back before the second. -/
theorem pushesAreMinPushApart : Obligations.PushesAreMinPushApart := by
  intro s t n _ hr hs hrun ht
  obtain ⟨u, hu, hrun⟩ := run_succ_next hrun
  obtain ⟨hset, hru⟩ := earliestClassify_after_classify hs hu
  calc s.world.now + tMinPush s.cfg = u.earliestClassify := hset.symm
    _ ≤ t.earliestClassify := earliestClassify_run (hru.trans hr) hrun
    _ = t.world.now := earliestClassify_of_classifiesNext ht

end Sys2Proof.Machine
end

section
/-! PROOFS. O38: MX's loop, from any state of its invariant, ends after ten advances or fewer (log 9), and the invariant holds
again. -/

namespace Sys2Proof.Machine

section
variable {c : Config} {k : Clock} {m : Mx}

/-- The phase lasts, and not longer than its slot. -/
def Mx.Lasts (m : Mx) : Prop := 1 ≤ m.rem ∧ m.rem ≤ mxSlot m

/-- MX with a phase that lasts meets its invariant once its lines are driven. -/
theorem Mx.Lasts.inv (h : m.Lasts) : (mxEmit c m).Inv c := by
  obtain ⟨hpos, hle⟩ := h
  exact ⟨hle, fun _ => hpos, rfl⟩

/-- From START at most eight advances reach a phase that lasts: column 0 of a lit cycle, or the pause of a dark one. -/
theorem mxSettle_start (hk : k.InRange) (m : Mx) :
    ∃ t, settle Mx.rem (mxAdvance c k) 8 (m.enter .start 0) = some t ∧ t.Lasts := by
  obtain ⟨_, _, hdim, _, hrate1, hrate2⟩ := hk
  rw [mxSettle_enter_empty c k m _ 7 rfl, mxAdvance_enter_start]
  by_cases hdark : (m.snapshot c k).colOn = 0
  · have hcycle : 1 ≤ 7 * (m.snapshot c k).colOn + (m.snapshot c k).pause := pwmTiming_cycle_pos hrate1 hrate2 hdim
    have hpause : (m.snapshot c k).pause ≠ 0 := by omega
    exact ⟨_, settle_dark_columns c k _ hdark hpause 6 le_rfl, Nat.pos_of_ne_zero hpause, le_rfl⟩
  · exact ⟨_, settle_of_rem 7 hdark, Nat.pos_of_ne_zero hdark, le_rfl⟩

/-- From the end of the pause one advance reaches START. -/
theorem mxSettle_pause_end (hk : k.InRange) (m : Mx) :
    ∃ t, settle Mx.rem (mxAdvance c k) 9 (m.enter .pause 0) = some t ∧ t.Lasts := by
  rw [mxSettle_enter_empty c k m _ 8 rfl, mxAdvance_enter_pause]
  exact mxSettle_start hk m

/-- From the end of a column that was lit one advance reaches the next column, or the pause, which may be empty. -/
theorem mxSettle_col_end (hk : k.InRange) (m : Mx) (hlit : 1 ≤ m.colOn) (i : Fin 7) :
    ∃ t, settle Mx.rem (mxAdvance c k) 10 (m.enter (.col i) 0) = some t ∧ t.Lasts := by
  rw [mxSettle_enter_empty c k m _ 9 rfl]
  by_cases hi : i.val < 6
  · rw [mxAdvance_enter_col_of_lt c k m hi]
    exact ⟨_, settle_of_rem 9 (Nat.ne_of_gt hlit), hlit, le_rfl⟩
  · obtain rfl : i = 6 := by omega
    rw [mxAdvance_enter_col_six]
    by_cases hpause : m.pause = 0
    · rw [hpause]
      exact mxSettle_pause_end hk m
    · exact ⟨_, settle_of_rem 9 hpause, Nat.pos_of_ne_zero hpause, le_rfl⟩

/-- R144 with the count of log 9: ten advances reach a phase that lasts. -/
theorem mxSettle_ten (hk : k.InRange) (hm : m.Inv c) :
    ∃ t, settle Mx.rem (mxAdvance c k) 10 (m.enter m.phase (m.rem - 1)) = some t ∧ t.Lasts := by
  obtain ⟨hslot, hpos, _⟩ := hm
  by_cases hrem : m.rem - 1 = 0
  case neg => exact ⟨_, settle_of_rem 10 hrem, Nat.pos_of_ne_zero hrem, (Nat.sub_le _ _).trans hslot⟩
  rw [hrem]
  cases hp : m.phase with
  | start =>
    obtain ⟨t, ht, hlasts⟩ := mxSettle_start (c := c) hk m
    exact ⟨t, settle_mono (by omega) ht, hlasts⟩
  | pause =>
    obtain ⟨t, ht, hlasts⟩ := mxSettle_pause_end (c := c) hk m
    exact ⟨t, settle_mono (by omega) ht, hlasts⟩
  | col i =>
    have hslot' : mxSlot m = m.colOn := by rw [mxSlot, hp]
    have hpos' := hpos (hp.trans_ne MxPhase.noConfusion)
    exact mxSettle_col_end hk m (by omega) i

/-- MX's step answers and keeps its invariant. -/
theorem mxStep_keeps_inv (hk : k.InRange) (hm : m.Inv c) : ∃ t, mxStep c k m = some t ∧ t.Inv c := by
  obtain ⟨t, ht, hlasts⟩ := mxSettle_ten hk hm
  exact ⟨_, mxStep_of_settle ht, hlasts.inv⟩

end

/-- Settles O38: ten advances reach a phase that lasts, and the step drives its lines. -/
theorem matrixLeavesAtMostTenPhases : Obligations.MatrixLeavesAtMostTenPhases := by
  intro c k m hk hm
  obtain ⟨t, ht, hlasts⟩ := mxSettle_ten hk hm
  exact ⟨t, ht, hlasts.1, mxStep_of_settle ht, hlasts.inv⟩

end Sys2Proof.Machine
end

section
/-! SUPPORT. The enable-line generator: one equation per phase of its `advance()` (R187), its step from each place a phase ends,
and its invariant. -/

namespace Sys2Proof.Machine

section
variable {c : Config} {k : Clock} {p : Pw}

/-- PW in a phase with d ticks left, CEIL_EN driven for it (R185). -/
def pwHeld (c : Config) (ph : PwPhase) (d low : Nat) : Pw := pwEmit c ⟨ph, d, low, false⟩

/-- R140, R186: the timing that PW takes where it leaves START. -/
def pwTiming (k : Clock) : PwmTiming := pwmTiming k.refreshRate.toNat k.ceilingDim.toNat

theorem pwTiming_sum (hk : k.InRange) : (pwTiming k).onTotal + (pwTiming k).pause = (pwTiming k).period := by
  obtain ⟨_, _, _, hdim, _⟩ := hk
  exact pwmTiming_onTotal_add_pause hdim

theorem pwTiming_period_bounds (hk : k.InRange) : 1 ≤ (pwTiming k).period ∧ (pwTiming k).period ≤ 1000000 := by
  obtain ⟨_, _, _, _, hrate1, hrate2⟩ := hk
  exact ⟨(periodUs_ge hrate1 hrate2).trans' (by decide), periodUs_le _⟩

/-! ### R187, phase by phase -/

/-- R186, R187: PW where it has left START, the snapshot taken. -/
def Pw.begin (p : Pw) (k : Clock) : Pw := { p with low := (pwTiming k).pause }.enter .high (pwTiming k).onTotal

theorem pwAdvance_enter_start (k : Clock) (p : Pw) (d : Nat) : pwAdvance k (p.enter .start d) = p.begin k := rfl

theorem pwAdvance_enter_high (k : Clock) (p : Pw) (d : Nat) : pwAdvance k (p.enter .high d) = p.enter .low p.low := rfl

theorem pwAdvance_enter_low (k : Clock) (p : Pw) (d : Nat) : pwAdvance k (p.enter .low d) = p.enter .start 0 := rfl

/-- A phase without ticks is left (R187). -/
theorem pwSettle_enter_empty (k : Clock) (p : Pw) (ph : PwPhase) (n : Nat) {d : Nat} (hd : d = 0) :
    settle Pw.rem (pwAdvance k) (n + 1) (p.enter ph d) =
      settle Pw.rem (pwAdvance k) n (pwAdvance k (p.enter ph d)) := settle_succ n hd

/-- PW's step is the loop of R187 from one tick less, then the line of the phase held. -/
theorem pwStep_of_settle {t : Pw}
    (h : settle Pw.rem (pwAdvance k) settleBound (p.enter p.phase (p.rem - 1)) = some t) :
    pwStep c k p = some (pwEmit c t) := by
  unfold pwStep
  rw [show settle Pw.rem (pwAdvance k) settleBound { p with rem := p.rem - 1 } = some t from h]

/-! ### PW's step at the end of a phase -/

/-- HIGH is followed by LOW, if that lasts. -/
theorem pwStep_high_end (hp : p.phase = .high) (hrem : p.rem ≤ 1) (hlow : p.low ≠ 0) :
    pwStep c k p = some (pwHeld c .low p.low p.low) := by
  have hset : settle Pw.rem (pwAdvance k) settleBound (p.enter p.phase (p.rem - 1)) = some (p.enter .low p.low) := by
    rw [Nat.sub_eq_zero_of_le hrem, hp, settleBound, pwSettle_enter_empty k p _ 9 rfl, pwAdvance_enter_high]
    exact settle_of_rem 9 hlow
  have hstep := pwStep_of_settle (c := c) hset
  exact hstep

/-- A boundary that leaves START goes on from START: LOW and an empty LOW after HIGH are two phases at most. -/
theorem pwStep_of_leavesStart {t : Pw} (hp : pwLeavesStart p = true)
    (h : settle Pw.rem (pwAdvance k) 8 (p.enter .start 0) = some t) : pwStep c k p = some (pwEmit c t) := by
  simp only [pwLeavesStart, Bool.and_eq_true, decide_eq_true_eq] at hp
  obtain ⟨hrem, hphase⟩ := hp
  apply pwStep_of_settle
  rw [Nat.sub_eq_zero_of_le hrem, settleBound]
  cases hp : p.phase with
  | start => exact settle_mono (by omega) h
  | low =>
    rw [pwSettle_enter_empty k p _ 9 rfl, pwAdvance_enter_low]
    exact settle_mono (by omega) h
  | high =>
    have hlow : p.low = 0 := by simpa [hp] using hphase
    rw [pwSettle_enter_empty k p _ 9 rfl, pwAdvance_enter_high, pwSettle_enter_empty k p _ 8 hlow, pwAdvance_enter_low]
    exact h

/-- A period with on-time begins in HIGH. -/
theorem pwStep_leavesStart_lit (hp : pwLeavesStart p = true) (hon : (pwTiming k).onTotal ≠ 0) :
    pwStep c k p = some (pwHeld c .high (pwTiming k).onTotal (pwTiming k).pause) := by
  have hset : settle Pw.rem (pwAdvance k) 8 (p.enter .start 0) = some (p.begin k) := by
    rw [pwSettle_enter_empty k p _ 7 rfl, pwAdvance_enter_start]
    exact settle_of_rem 7 hon
  have hstep := pwStep_of_leavesStart (c := c) hp hset
  exact hstep

/-- A period with no on-time begins in LOW. -/
theorem pwStep_leavesStart_dark (hp : pwLeavesStart p = true) (hon : (pwTiming k).onTotal = 0)
    (hpause : (pwTiming k).pause ≠ 0) :
    pwStep c k p = some (pwHeld c .low (pwTiming k).pause (pwTiming k).pause) := by
  have hset : settle Pw.rem (pwAdvance k) 8 (p.enter .start 0) = some ((p.begin k).enter .low (pwTiming k).pause) := by
    rw [pwSettle_enter_empty k p _ 7 rfl, pwAdvance_enter_start, Pw.begin,
      pwSettle_enter_empty k _ _ 6 hon]
    exact settle_of_rem 6 hpause
  have hstep := pwStep_of_leavesStart (c := c) hp hset
  exact hstep

/-! ### The invariant -/

/-- PW in a phase that lasts and does not reach beyond a period meets its invariant. -/
theorem pwHeld_inv {ph : PwPhase} {d low : Nat} (hd : 1 ≤ d) (hhigh : ph = .high → d + low ≤ 1000000)
    (hlow : ph = .low → d ≤ low) (hstart : ph ≠ .start) : (pwHeld c ph d low).Inv c :=
  ⟨fun h => absurd h hstart, fun _ => hd, hhigh, hlow, rfl⟩

/-- PW's step answers and keeps its invariant. -/
theorem pwStep_keeps_inv (hk : k.InRange) (hp : p.Inv c) : ∃ t, pwStep c k p = some t ∧ t.Inv c := by
  obtain ⟨hstart, hpos, hhigh, hlow, hlines⟩ := hp
  have hsum := pwTiming_sum hk
  obtain ⟨hperiod1, hperiod2⟩ := pwTiming_period_bounds hk
  have hleaves (h : pwLeavesStart p = true) : ∃ t, pwStep c k p = some t ∧ t.Inv c := by
    by_cases hon : (pwTiming k).onTotal = 0
    · exact ⟨_, pwStep_leavesStart_dark h hon (by omega),
        pwHeld_inv (by omega) nofun (fun _ => le_rfl) PwPhase.noConfusion⟩
    · exact ⟨_, pwStep_leavesStart_lit h hon,
        pwHeld_inv (by omega) (fun _ => by omega) nofun PwPhase.noConfusion⟩
  rcases Nat.lt_or_ge 1 p.rem with hrem | hrem
  · have hne : p.phase ≠ .start := fun h => by have := hstart h; omega
    refine ⟨_, pwStep_of_lt hrem, fun h => absurd h hne, fun _ => Nat.le_sub_of_add_le hrem, fun h => ?_, fun h => ?_, rfl⟩
    · exact (Nat.add_le_add_right (Nat.sub_le _ _) _).trans (hhigh h)
    · exact (Nat.sub_le _ _).trans (hlow h)
  · cases hph : p.phase with
    | start => exact hleaves (by simp [pwLeavesStart, hph, hrem])
    | low => exact hleaves (by simp [pwLeavesStart, hph, hrem])
    | high =>
      by_cases hl : p.low = 0
      · exact hleaves (by simp [pwLeavesStart, hph, hrem, hl])
      · exact ⟨_, pwStep_high_end hph hrem hl,
          pwHeld_inv (Nat.pos_of_ne_zero hl) nofun (fun _ => le_rfl) PwPhase.noConfusion⟩

end

end Sys2Proof.Machine
end

section
/-! PROOFS. O43: one period of PW, its HIGH and its LOW, each counted down. -/

namespace Sys2Proof.Machine

section
variable {c : Config} {clk : Nat → Clock} {p : Pw} {ph : PwPhase} {a d low n : Nat}

/-- Inside a phase a run only counts its ticks down. -/
theorem pwRun_within (h : pwRun c clk a p = some (pwHeld c ph d low)) (hn : n < d) :
    pwRun c clk (a + n) p = some (pwHeld c ph (d - n) low) := by
  rw [pwRun_add, h]
  exact pwRun_countdown c _ ⟨ph, d, low, false⟩ hn

/-- R188: tick n of a period, while CEIL_EN is active. -/
theorem pwRun_high (hp : pwLeavesStart p = true) (hn : n < (pwTiming (clk 0)).onTotal) :
    pwRun c clk (n + 1) p =
      some (pwHeld c .high ((pwTiming (clk 0)).onTotal - n) (pwTiming (clk 0)).pause) := by
  have hfirst : pwRun c clk 1 p = some (pwHeld c .high (pwTiming (clk 0)).onTotal (pwTiming (clk 0)).pause) :=
    pwStep_leavesStart_lit (k := clk 0) hp (by omega)
  rw [Nat.add_comm]
  exact pwRun_within hfirst hn

/-- R188: LOW, if it lasts, is entered when the on-time is over. -/
theorem pwRun_low_begin (hp : pwLeavesStart p = true) (hpause : (pwTiming (clk 0)).pause ≠ 0) :
    pwRun c clk ((pwTiming (clk 0)).onTotal + 1) p =
      some (pwHeld c .low (pwTiming (clk 0)).pause (pwTiming (clk 0)).pause) := by
  by_cases hon : (pwTiming (clk 0)).onTotal = 0
  · rw [hon]
    exact pwStep_leavesStart_dark hp hon hpause
  · obtain ⟨e, he⟩ : ∃ e, (pwTiming (clk 0)).onTotal = e + 1 := Nat.exists_eq_add_one.mpr (by omega)
    have hlast := pwRun_high (c := c) (clk := clk) hp (n := e) (by omega)
    rw [he, pwRun, hlast]
    exact pwStep_high_end rfl (by show (pwTiming (clk 0)).onTotal - e ≤ 1; omega) hpause

/-- R188: tick n of a period, when CEIL_EN is no longer active. -/
theorem pwRun_low (hp : pwLeavesStart p = true) (hlo : (pwTiming (clk 0)).onTotal ≤ n)
    (hhi : n < (pwTiming (clk 0)).onTotal + (pwTiming (clk 0)).pause) :
    ∃ d, pwRun c clk (n + 1) p = some (pwHeld c .low d (pwTiming (clk 0)).pause) := by
  obtain ⟨e, rfl⟩ := Nat.exists_eq_add_of_le hlo
  rw [Nat.add_right_comm]
  exact ⟨_, pwRun_within (pwRun_low_begin hp (by omega)) (by omega)⟩

/-- R188: when the period is over START is left again; its last tick is LOW's, or HIGH's if LOW is empty. -/
theorem pwRun_period_end (hp : pwLeavesStart p = true)
    (hpos : 1 ≤ (pwTiming (clk 0)).onTotal + (pwTiming (clk 0)).pause) :
    ∃ t, pwRun c clk ((pwTiming (clk 0)).onTotal + (pwTiming (clk 0)).pause) p = some t ∧ pwLeavesStart t = true := by
  by_cases hpause : (pwTiming (clk 0)).pause = 0
  · obtain ⟨e, he⟩ : ∃ e, (pwTiming (clk 0)).onTotal = e + 1 := Nat.exists_eq_add_one.mpr (by omega)
    have hlast := pwRun_high (c := c) (clk := clk) hp (n := e) (by omega)
    rw [hpause, Nat.add_zero, he]
    rw [hpause, he, Nat.add_sub_cancel_left] at hlast
    exact ⟨_, hlast, rfl⟩
  · obtain ⟨e, he⟩ : ∃ e, (pwTiming (clk 0)).pause = e + 1 := Nat.exists_eq_add_one.mpr (by omega)
    have hlast := pwRun_within (pwRun_low_begin (c := c) (clk := clk) hp hpause) (n := e) (by omega)
    rw [Nat.add_assoc, Nat.add_comm 1, he, Nat.add_sub_cancel_left] at hlast
    rw [he]
    exact ⟨_, hlast, rfl⟩

end

/-- Settles O43: the first on_total ticks of the period are HIGH's, the others LOW's. -/
theorem enableLinePeriod : Obligations.EnableLinePeriod := by
  intro c clk p hk hp
  have hsum : (pwTiming (clk 0)).onTotal + (pwTiming (clk 0)).pause = 1000000 / (clk 0).refreshRate.toNat :=
    pwTiming_sum hk
  obtain ⟨hperiod, _⟩ := pwTiming_period_bounds hk
  rw [← pwTiming_sum hk] at hperiod
  rw [← hsum]
  refine ⟨fun n hn => ?_, pwRun_period_end hp hperiod⟩
  rw [hsum]
  change ∃ t : Pw, _ ∧ t.enLine = if n < (pwTiming (clk 0)).onTotal then c.enActive else !c.enActive
  by_cases hon : n < (pwTiming (clk 0)).onTotal
  · rw [if_pos hon]
    refine ⟨_, pwRun_high hp hon, ?_⟩
    show driveLine c.enActive true = c.enActive
    cases c.enActive <;> rfl
  · rw [if_neg hon]
    obtain ⟨d, hd⟩ := pwRun_low (c := c) hp (Nat.not_lt.mp hon) hn
    refine ⟨_, hd, ?_⟩
    show driveLine c.enActive false = !c.enActive
    cases c.enActive <;> rfl

end Sys2Proof.Machine
end

section
/-! SUPPORT. The serializer's step from any state of its invariant: every phase but the end of a transmission is followed by one
advance, the invariant holds again, and the ticks left of the transmission fall by one. -/

namespace Sys2Proof.Machine

/-! ### The ticks left of a transmission -/

/-- R170: the number of bits of a sequence. -/
def srBits (s : Fin 4) : Nat := if s.val < 3 then 12 else 41

/-- R178: the ticks of the sequences after s. -/
def srTicksAfter (c : Config) (s : Fin 4) : Nat := if s.val < 3 then (2 - s.val) * tSeq c 12 + tSeq c 41 else 0

/-- The ticks left until START is left again: those of the phase held, of the rest of its sequence, of the sequences after it and
of IDLE (R178, R181). -/
def srTicksLeft (c : Config) (r : Sr) : Nat :=
  match r.phase with
  | .start => r.rem
  | .latchLow s => r.rem + srBits s * (c.tClkLow + c.tRise) + c.tGap + srTicksAfter c s + r.idle
  | .clkLow s i => r.rem + c.tRise + (srBits s - (i + 1)) * (c.tClkLow + c.tRise) + c.tGap + srTicksAfter c s + r.idle
  | .clkHigh s i => r.rem + (srBits s - (i + 1)) * (c.tClkLow + c.tRise) + c.tGap + srTicksAfter c s + r.idle
  | .gap s => r.rem + srTicksAfter c s + r.idle
  | .idle => r.rem

section
variable {c : Config} {k : Clock} {r t : Sr}

theorem srBits_pos (s : Fin 4) : 0 < srBits s := by
  unfold srBits
  split
  · decide
  · decide

/-- R178: a sequence and those after it. -/
theorem srTicksAfter_of_lt {s s' : Fin 4} (h : s'.val = s.val + 1) :
    srTicksAfter c s = tSeq c (srBits s') + srTicksAfter c s' := by
  fin_cases s <;> fin_cases s' <;> simp [srTicksAfter, srBits] at h ⊢
  all_goals omega

/-- Only the last sequence has none after it. -/
theorem srTicksAfter_eq_zero_iff (hc : c.wf = true) (s : Fin 4) : srTicksAfter c s = 0 ↔ s.val = 3 := by
  have hpos := tSeq_pos hc 41
  unfold srTicksAfter
  split
  · omega
  · omega

theorem getElem_length_of_lengths (h : r.seq.toList.map List.length = [12, 12, 12, 41]) (s : Fin 4) :
    r.seq[s].length = srBits s := by
  have hs : (r.seq.toList.map List.length)[s.val]'(by simp) = [12, 12, 12, 41][s.val] := by simp only [h]
  rw [List.getElem_map, Vector.getElem_toList] at hs
  refine hs.trans ?_
  fin_cases s <;> rfl

/-! ### SR while a transmission runs -/

/-- SR in a phase that lasts: the part of its invariant that holds outside START. -/
structure Sr.Runs (c : Config) (r : Sr) : Prop where
  pos : 1 ≤ r.rem
  slot : r.rem ≤ srSlot c r
  lengths : r.seq.toList.map List.length = [12, 12, 12, 41]
  bit : srBitOk r = true
  lines : srEmit r = r

theorem Sr.Runs.inv (h : r.Runs c) : r.Inv c := ⟨h.slot, fun _ => ⟨h.pos, h.lengths⟩, h.bit, h.lines⟩

theorem Sr.Inv.runs (h : r.Inv c) (hp : r.phase ≠ .start) : r.Runs c := by
  obtain ⟨hslot, hlasts, hbit, hlines⟩ := h
  obtain ⟨hpos, hlengths⟩ := hlasts hp
  exact ⟨hpos, hslot, hlengths, hbit, hlines⟩

theorem Sr.Runs.phase_ne_start (h : r.Runs c) : r.phase ≠ .start := by
  intro hp
  have hslot := h.slot
  rw [srSlot, hp] at hslot
  exact Nat.not_succ_le_zero _ (h.pos.trans hslot)

/-- SR in its invariant leaves START wherever it is in START. -/
theorem Sr.Inv.leavesStart_of_start (h : r.Inv c) (hp : r.phase = .start) : srLeavesStart r = true := by
  obtain ⟨hslot, _⟩ := h
  have hzero : srSlot c r = 0 := by rw [srSlot, hp]
  have hrem : r.rem ≤ 1 := by omega
  simp [srLeavesStart, hp, hrem]

/-- R175: in the last tick of a phase one advance leads on, if the phase it reaches lasts. -/
theorem srStep_of_last (hrem : r.rem ≤ 1) (hadv : srAdvance c k (r.enter r.phase 0) = t) (ht : t.rem ≠ 0) :
    srStep c k r = some (srEmit t) := by
  rw [srStep_eq_map, Nat.sub_eq_zero_of_le hrem, settleBound, srSettle_enter_empty c k r r.phase 9 rfl, hadv,
    settle_of_rem 9 ht]
  rfl

theorem srTicksLeft_enter_pred (hrem : 2 ≤ r.rem) : srTicksLeft c (r.enter r.phase (r.rem - 1)) + 1 = srTicksLeft c r := by
  unfold srTicksLeft Sr.enter
  cases r.phase <;> dsimp only <;> omega

/-- SR's step from r gives t, one tick nearer to the end of the transmission. -/
def SrAdvances (c : Config) (k : Clock) (r t : Sr) : Prop :=
  srStep c k r = some t ∧ t.Runs c ∧ srTicksLeft c t + 1 = srTicksLeft c r

/-- R176: a phase that lasts. -/
theorem srAdvances_of_wait (h : r.Runs c) (hrem : 2 ≤ r.rem) :
    SrAdvances c k r (srEmit (r.enter r.phase (r.rem - 1))) :=
  ⟨srStep_of_lt hrem, ⟨Nat.le_sub_of_add_le hrem, (Nat.sub_le _ _).trans h.slot, h.lengths, h.bit, rfl⟩,
    srTicksLeft_enter_pred hrem⟩

section
variable (hc : c.wf = true) (h : r.Runs c) (hrem : r.rem = 1) {s : Fin 4} {i : Nat}
include hc h hrem

/-- R175: the first bit is driven when the latch has settled. -/
theorem srAdvances_latchLow (hp : r.phase = .latchLow s) : SrAdvances c k r (srEmit (r.enterBit c s 0)) := by
  obtain ⟨-, hlow, -, -⟩ := wf_wireTimes hc
  have hpos : 0 < r.seq[s].length := getElem_length_of_lengths h.lengths s ▸ srBits_pos s
  refine ⟨srStep_of_last hrem.le (hp ▸ srAdvance_enter_latchLow c k r s 0) hlow,
    ⟨Nat.pos_of_ne_zero hlow, le_rfl, h.lengths, ?_, rfl⟩, ?_⟩
  · simpa [srBitOk, srEmit, Sr.enterBit, Sr.enter, Sr.bit] using hpos
  · obtain ⟨n, hn⟩ : ∃ n, srBits s = n + 1 := Nat.exists_eq_add_one.mpr (srBits_pos s)
    simp only [srTicksLeft, srEmit, Sr.enterBit, Sr.enter, hp, hrem, hn, Nat.succ_mul, Nat.add_sub_cancel, Nat.zero_add]
    omega

/-- R175: the clock rises in the middle of a bit. -/
theorem srAdvances_clkLow (hp : r.phase = .clkLow s i) :
    SrAdvances c k r (srEmit (r.enter (.clkHigh s i) c.tRise)) := by
  obtain ⟨-, -, hrise, -⟩ := wf_wireTimes hc
  have hbit := h.bit
  refine ⟨srStep_of_last hrem.le (hp ▸ srAdvance_enter_clkLow c k r s i 0) hrise,
    ⟨Nat.pos_of_ne_zero hrise, le_rfl, h.lengths, ?_, rfl⟩, ?_⟩
  · rw [srBitOk, hp] at hbit
    exact hbit
  · simp only [srTicksLeft, srEmit, Sr.enter, hp, hrem]
    omega

/-- R175: a bit is followed by the next one. -/
theorem srAdvances_clkHigh_of_lt (hp : r.phase = .clkHigh s i) (hi : i + 1 < r.seq[s].length) :
    SrAdvances c k r (srEmit (r.enterBit c s (i + 1))) := by
  obtain ⟨-, hlow, -, -⟩ := wf_wireTimes hc
  have hlen := getElem_length_of_lengths h.lengths s
  refine ⟨srStep_of_last hrem.le (hp ▸ srAdvance_enter_clkHigh_of_lt c k r hi 0) hlow,
    ⟨Nat.pos_of_ne_zero hlow, le_rfl, h.lengths, ?_, rfl⟩, ?_⟩
  · simpa [srBitOk, srEmit, Sr.enterBit, Sr.enter, Sr.bit] using hi
  · obtain ⟨n, hn⟩ : ∃ n, srBits s - (i + 1) = n + 1 := Nat.exists_eq_add_one.mpr (by omega)
    have hn' : srBits s - (i + 1 + 1) = n := by omega
    simp only [srTicksLeft, srEmit, Sr.enterBit, Sr.enter, hp, hrem, hn, hn', Nat.succ_mul]
    omega

/-- R175: the last bit is followed by the gap. -/
theorem srAdvances_clkHigh_last (hp : r.phase = .clkHigh s i) (hi : i + 1 = r.seq[s].length) :
    SrAdvances c k r (srEmit (r.enter (.gap s) c.tGap)) := by
  obtain ⟨-, -, -, hgap⟩ := wf_wireTimes hc
  have hlen := getElem_length_of_lengths h.lengths s
  refine ⟨srStep_of_last hrem.le (hp ▸ srAdvance_enter_clkHigh_last c k r hi 0) hgap,
    ⟨Nat.pos_of_ne_zero hgap, le_rfl, h.lengths, rfl, rfl⟩, ?_⟩
  simp only [srTicksLeft, srEmit, Sr.enter, hp, hrem, hi, hlen, Nat.sub_self, Nat.zero_mul]
  omega

/-- R175: a gap is followed by the next sequence. -/
theorem srAdvances_gap_of_lt {s' : Fin 4} (hp : r.phase = .gap s) (hs : s'.val = s.val + 1) :
    SrAdvances c k r (srEmit (r.enter (.latchLow s') c.tSettle)) := by
  obtain ⟨hsettle, -, -, -⟩ := wf_wireTimes hc
  refine ⟨srStep_of_last hrem.le (hp ▸ srAdvance_enter_gap_of_lt c k r hs 0) hsettle,
    ⟨Nat.pos_of_ne_zero hsettle, le_rfl, h.lengths, rfl, rfl⟩, ?_⟩
  simp only [srTicksLeft, srEmit, Sr.enter, hp, hrem, srTicksAfter_of_lt hs, tSeq]
  omega

omit hc in
/-- R175: the last gap is followed by the idle ticks, if there are any. -/
theorem srAdvances_gap_three (hp : r.phase = .gap 3) (hidle : r.idle ≠ 0) :
    SrAdvances c k r (srEmit (r.enter .idle r.idle)) := by
  refine ⟨srStep_of_last hrem.le (hp ▸ srAdvance_enter_gap_three c k r 0) hidle,
    ⟨Nat.pos_of_ne_zero hidle, le_rfl, h.lengths, rfl, rfl⟩, ?_⟩
  have hafter : srTicksAfter c 3 = 0 := rfl
  simp only [srTicksLeft, srEmit, Sr.enter, hp, hrem, hafter]
  omega

end

/-- R175, R176: until START is left a step takes one tick of the transmission. -/
theorem srAdvances_of_runs (hc : c.wf = true) (k : Clock) (h : r.Runs c) (hl : srLeavesStart r = false) :
    ∃ t, SrAdvances c k r t := by
  rcases Nat.lt_or_eq_of_le h.pos with hwait | hrem
  · exact ⟨_, srAdvances_of_wait h hwait⟩
  replace hrem := hrem.symm
  have hlen := getElem_length_of_lengths h.lengths
  cases hp : r.phase with
  | start => simp [srLeavesStart, hp, hrem] at hl
  | latchLow s => exact ⟨_, srAdvances_latchLow hc h hrem hp⟩
  | clkLow s i => exact ⟨_, srAdvances_clkLow hc h hrem hp⟩
  | clkHigh s i =>
    have hbit := h.bit
    simp only [srBitOk, hp, Bool.and_eq_true, decide_eq_true_eq] at hbit
    rcases Nat.lt_or_eq_of_le (Nat.succ_le_of_lt hbit.1) with hi | hi
    · exact ⟨_, srAdvances_clkHigh_of_lt hc h hrem hp hi⟩
    · exact ⟨_, srAdvances_clkHigh_last hc h hrem hp hi⟩
  | gap s =>
    by_cases hs : s.val < 3
    · exact ⟨_, srAdvances_gap_of_lt (s' := ⟨s.val + 1, by omega⟩) hc h hrem hp rfl⟩
    · obtain rfl : s = 3 := by omega
      exact ⟨_, srAdvances_gap_three h hrem hp (by simpa [srLeavesStart, hp, hrem] using hl)⟩
  | idle => simp [srLeavesStart, hp, hrem] at hl

/-- R172, R181: where START is left a transmission begins, with max(period_us, T_FRAME) ticks to go. -/
theorem srBegins_of_leavesStart (hc : c.wf = true) (k : Clock) (hl : srLeavesStart r = true) : ∃ t, srStep c k r = some t ∧
    t.Runs c ∧ srTicksLeft c t = max (periodUs k.refreshRate.toNat) (tFrame c) := by
  obtain ⟨hsettle, -, -, -⟩ := wf_wireTimes hc
  refine ⟨_, srStep_of_leavesStart hl hsettle,
    ⟨Nat.pos_of_ne_zero hsettle, le_rfl, transmission_lengths c k, rfl, rfl⟩, ?_⟩
  have hsum : srTicksLeft c (srEmit ((r.snapshot c k).enter (.latchLow 0) c.tSettle)) =
      tFrame c + (r.snapshot c k).idle := by
    have hfirst : tSeq c (srBits 0) = c.tSettle + srBits 0 * (c.tClkLow + c.tRise) + c.tGap := rfl
    have hafter : tFrame c = tSeq c (srBits 0) + srTicksAfter c 0 := by
      show 3 * tSeq c 12 + tSeq c 41 = tSeq c 12 + (2 * tSeq c 12 + tSeq c 41)
      omega
    rw [hafter, hfirst]
    rfl
  rw [hsum]
  rcases Nat.lt_or_ge (tFrame c) (periodUs k.refreshRate.toNat) with hlt | hge
  · rw [Sr.snapshot_idle_of_lt r hlt]
    omega
  · rw [Sr.snapshot_idle_of_le r hge]
    omega

/-- SR's step answers and keeps its invariant. -/
theorem srStep_keeps_inv (hc : c.wf = true) (k : Clock) (h : r.Inv c) : ∃ t, srStep c k r = some t ∧ t.Inv c := by
  cases hl : srLeavesStart r with
  | true =>
    obtain ⟨t, ht, hruns, _⟩ := srBegins_of_leavesStart hc k hl
    exact ⟨t, ht, hruns.inv⟩
  | false =>
    have hp : r.phase ≠ .start := fun hp => Bool.false_ne_true (hl.symm.trans (Sr.Inv.leavesStart_of_start h hp))
    obtain ⟨t, ht, hruns, _⟩ := srAdvances_of_runs hc k (Sr.Inv.runs h hp) hl
    exact ⟨t, ht, hruns.inv⟩

/-- START is left at the coming boundary exactly when one tick is left of the transmission. -/
theorem srLeavesStart_iff_ticksLeft (hc : c.wf = true) (h : r.Runs c) : srLeavesStart r = true ↔ srTicksLeft c r = 1 := by
  obtain ⟨-, -, -, hgap⟩ := wf_wireTimes hc
  have hpos := h.pos
  have hwithin (hleaves : srLeavesStart r = false) (hleft : 2 ≤ srTicksLeft c r) :
      srLeavesStart r = true ↔ srTicksLeft c r = 1 :=
    iff_of_false (Bool.eq_false_iff.mp hleaves) (Nat.ne_of_gt hleft)
  cases hp : r.phase with
  | start => exact absurd hp h.phase_ne_start
  | latchLow s => exact hwithin (by simp [srLeavesStart, hp]) (by simp only [srTicksLeft, hp]; omega)
  | clkLow s i => exact hwithin (by simp [srLeavesStart, hp]) (by simp only [srTicksLeft, hp]; omega)
  | clkHigh s i => exact hwithin (by simp [srLeavesStart, hp]) (by simp only [srTicksLeft, hp]; omega)
  | gap s =>
    have hafter := srTicksAfter_eq_zero_iff hc s
    simp only [srLeavesStart, srTicksLeft, hp, Bool.and_eq_true, decide_eq_true_eq]
    omega
  | idle =>
    simp only [srLeavesStart, srTicksLeft, hp, Bool.and_true, decide_eq_true_eq]
    omega

end

end Sys2Proof.Machine
end

section
/-! PROOFS. O42: the ticks left of a transmission are counted down to the next one. -/

namespace Sys2Proof.Machine

section
variable {c : Config} {clk : Nat → Clock} {r : Sr} {n : Nat}

/-- R181: n ticks into a transmission, n fewer are left of it. -/
theorem srAlone_ticksLeft (hc : c.wf = true) (hr : srLeavesStart r = true)
    (hn : n < max (periodUs (clk 0).refreshRate.toNat) (tFrame c)) :
    ∃ t, srAlone c clk (n + 1) r = some t ∧ t.Runs c ∧
      srTicksLeft c t + n = max (periodUs (clk 0).refreshRate.toNat) (tFrame c) := by
  induction n with
  | zero => exact srBegins_of_leavesStart hc (clk 0) hr
  | succ n ih =>
    obtain ⟨u, hu, hruns, hleft⟩ := ih (by omega)
    have hnot : srLeavesStart u = false := by
      rw [Bool.eq_false_iff, ne_eq, srLeavesStart_iff_ticksLeft hc hruns]
      omega
    obtain ⟨t, ht, hruns', hleft'⟩ := srAdvances_of_runs hc (clk (n + 1)) hruns hnot
    exact ⟨t, by rw [srAlone, hu]; exact ht, hruns', by omega⟩

/-- A run of SR alone is that of SR with any receiver (R183). -/
theorem srRun_of_srAlone {t : Sr} (h : srAlone c clk n r = some t) (v : Receiver) :
    ∃ v', srRun c clk n (r, v) = some (t, v') := by
  rw [← srRun_map_fst c clk n (r, v), Option.map_eq_some_iff] at h
  obtain ⟨⟨t', v'⟩, hrun, rfl⟩ := h
  exact ⟨v', hrun⟩

/-- R181: START is left again when no tick is left, and not before. -/
theorem srRun_leavesStart (hc : c.wf = true) (hr : srLeavesStart r = true) (v : Receiver) (h0 : 0 < n)
    (hn : n ≤ max (periodUs (clk 0).refreshRate.toNat) (tFrame c)) :
    ∃ r' v', srRun c clk n (r, v) = some (r', v') ∧
      srLeavesStart r' = decide (n = max (periodUs (clk 0).refreshRate.toNat) (tFrame c)) := by
  obtain ⟨m, rfl⟩ := Nat.exists_eq_add_one.mpr h0
  obtain ⟨t, ht, hruns, hleft⟩ := srAlone_ticksLeft (clk := clk) hc hr (Nat.lt_of_succ_le hn)
  obtain ⟨v', hv⟩ := srRun_of_srAlone ht v
  refine ⟨t, v', hv, ?_⟩
  rw [Bool.eq_iff_iff, srLeavesStart_iff_ticksLeft hc hruns, decide_eq_true_iff]
  omega

end

/-- Settles O42: the run reaches the last tick after max(period_us, T_FRAME) boundaries. -/
theorem transmissionsRepeat : Obligations.TransmissionsRepeat := by
  intro c clk r v hc hr
  have hpos := (tFrame_pos hc).trans (Nat.le_max_right (periodUs (clk 0).refreshRate.toNat) (tFrame c))
  refine ⟨?_, fun n h0 hn => ?_⟩
  · obtain ⟨r', v', hrun, hl⟩ := srRun_leavesStart (clk := clk) hc hr v hpos le_rfl
    exact ⟨r', v', hrun, hl.trans (decide_eq_true rfl)⟩
  · obtain ⟨r', v', hrun, hl⟩ := srRun_leavesStart (clk := clk) hc hr v h0 hn.le
    exact ⟨r', v', hrun, hl.trans (decide_eq_false hn.ne)⟩

end Sys2Proof.Machine
end

section
/-! PROOFS. O58, O10 and O11: the reset state, its values and its invariant (R330, R332). -/

namespace Sys2Proof.Machine

/-! ### The lines at reset -/

theorem driveLines_none (active : Bool) : driveLines active 0 = if active then 0x00 else 0x7F := by
  cases active <;> rfl

theorem driveLine_off (active : Bool) : driveLine active false = !active := by
  cases active <;> rfl

/-- R147: at reset MX drives the lines of START, all inactive. -/
theorem mxEmit_reset (c : Config) : mxEmit c (Mx.reset c) = Mx.reset c := by
  show { Mx.reset c with row := driveLines c.rowActive 0, col := driveLines c.colActive 0 } = Mx.reset c
  rw [driveLines_none, driveLines_none]
  rfl

theorem pwEmit_reset (c : Config) : pwEmit c (Pw.reset c) = Pw.reset c := by
  show { Pw.reset c with enLine := driveLine c.enActive false } = Pw.reset c
  rw [driveLine_off]
  rfl

theorem Mx.reset_row_getLsbD (c : Config) (j : Fin 7) : (Mx.reset c).row.getLsbD j.val = !c.rowActive := by
  rw [← mxEmit_reset]
  exact (getLsbD_driveLines c.rowActive 0 j).trans (by simp)

theorem Mx.reset_col_getLsbD (c : Config) (j : Fin 7) : (Mx.reset c).col.getLsbD j.val = !c.colActive := by
  rw [← mxEmit_reset]
  exact (getLsbD_driveLines c.colActive 0 j).trans (by simp)

/-! ### The invariant at reset -/

/-- R6: the bounds of the reset value of REFRESH_RATE. -/
theorem wf_resetRate {c : Config} (h : c.wf = true) :
    1 ≤ c.resetRefreshRate.toNat ∧ c.resetRefreshRate.toNat ≤ 142857 := by
  simp only [Config.wf, Config.wfLimits, Bool.and_eq_true, decide_eq_true_eq] at h
  omega

theorem Clock.reset_inRange {c : Config} (h : c.wf = true) : (Clock.reset c).InRange :=
  ⟨.inr rfl, .inr rfl, by show 50 ≤ 100; decide, by show 50 ≤ 100; decide, wf_resetRate h⟩

theorem Mx.reset_inv (c : Config) : (Mx.reset c).Inv c := ⟨le_rfl, absurd rfl, mxEmit_reset c⟩

theorem Sr.reset_inv (c : Config) : Sr.reset.Inv c := ⟨le_rfl, absurd rfl, rfl, rfl⟩

theorem Pw.reset_inv (c : Config) : (Pw.reset c).Inv c := ⟨fun _ => rfl, absurd rfl, nofun, nofun, pwEmit_reset c⟩

theorem Bd.reset_inv (c : Config) : (Bd.reset c).Inv c := ⟨rfl, rfl, rfl, .inr ⟨rfl, rfl, rfl⟩, rfl⟩

theorem State.resetWith_inv {c : Config} (h : c.wf = true) : (State.resetWith c).Inv :=
  ⟨h, Clock.reset_inRange h, by show Status.Consistent ⟨false, false, false, false, 0⟩; decide,
    by show lastSampleOk 0; decide, Nat.zero_le _, Mx.reset_inv c, Sr.reset_inv c, Pw.reset_inv c, Bd.reset_inv c,
    rfl, rfl, fun _ => ⟨rfl, rfl⟩, rfl⟩

/-- The invariant says nothing of the record of the world. -/
theorem State.inv_setWorld {s : State} (w : World) : (s.setWorld w).Inv ↔ s.Inv := Iff.rfl

/-! ### The statements -/

/-- Settles O58: part by part, the block's configuration being well formed. -/
theorem resetMeetsTheInvariant : Obligations.ResetMeetsTheInvariant :=
  ⟨State.resetWith_inv Config.chip.ok, fun _ h => State.resetWith_inv h⟩

theorem step_of_reset {s : State} (h : s.resetAsserted = true) : step s = .next s.resetBoundary := if_pos h

/-- Settles O10: the boundary under RESET builds the reset state and keeps the configuration and the world. -/
theorem resetForcesEveryResetValue : Obligations.ResetForcesEveryResetValue :=
  fun s h => (step_of_reset h).trans (congrArg Host.Outcome.next s.resetBoundary_eq)

/-- Settles O11: the values are those written in the reset state; the rows, columns and GND_REF depend on the configuration. -/
theorem resetValues : Obligations.ResetValues := by
  intro c
  refine ⟨State.resetWith c, rfl, fun h => h ▸ rfl, rfl, rfl, rfl, rfl, rfl, rfl, rfl, rfl, rfl, ?status, rfl, rfl, rfl,
    fun j hj => Mx.reset_row_getLsbD c ⟨j, hj⟩, fun j hj => Mx.reset_col_getLsbD c ⟨j, hj⟩, rfl, rfl, rfl, rfl, rfl, rfl,
    fun h => if_pos h, fun h => if_neg (Bool.eq_false_iff.mp h), rfl, rfl, rfl, rfl, rfl, rfl, rfl, rfl, rfl, rfl, rfl,
    rfl, rfl, rfl, rfl, rfl, rfl, rfl, rfl, rfl, fun l => ?edges⟩
  case status =>
    show statusWord ⟨false, false, false, false, 0⟩ 0 = 0
    decide
  case edges => cases l <;> exact ⟨rfl, rfl, rfl⟩

end Sys2Proof.Machine
end

section
/-! SUPPORT. The invariant under a command: the Clock State stays in its ranges, STATUS stays consistent, and nothing else of the
invariant is touched (R284). -/

namespace Sys2Proof.Machine

section
variable {i : Instr} {r : Reg} {s t : State}

/-! ### The Clock State -/

theorem toNat_setWidth_of_le {n hi : Nat} {d : Data} (h : d.toNat ≤ hi) (hn : hi < 2 ^ n) : (d.setWidth n).toNat ≤ hi := by
  rwa [BitVec.toNat_setWidth, Nat.mod_eq_of_lt (by omega)]

/-- R36: legal data keeps the Clock State in its ranges. -/
theorem Clock.inRange_store (hi : writeTarget i = some r) (hr : r.inClock = true) (hl : dataLegal i = true) {k : Clock}
    (hk : k.InRange) : (k.store (fieldData (encode i)) r).InRange := by
  obtain ⟨hhours, hminutes, hregular, hceiling, hrate⟩ := hk
  cases i <;> cases hi
  case wrStatus => cases hr
  all_goals rw [encode, fieldData_hcWord]
  case wrHours d =>
    have hd := toNat_setWidth_of_le (n := 7) (of_decide_eq_true hl) (by decide)
    exact ⟨.inl (Nat.lt_succ_of_le hd), hminutes, hregular, hceiling, hrate⟩
  case wrMinutes d =>
    have hd := toNat_setWidth_of_le (n := 7) (of_decide_eq_true hl) (by decide)
    exact ⟨hhours, .inl (Nat.lt_succ_of_le hd), hregular, hceiling, hrate⟩
  case wrRegularDim d =>
    exact ⟨hhours, hminutes, toNat_setWidth_of_le (of_decide_eq_true hl) (by decide), hceiling, hrate⟩
  case wrCeilingDim d =>
    exact ⟨hhours, hminutes, hregular, toNat_setWidth_of_le (of_decide_eq_true hl) (by decide), hrate⟩
  case wrRefreshRate d =>
    obtain ⟨hlo, hhi⟩ := (dataIsRate_iff d).mp hl
    have hd : (d.setWidth 18).toNat = d.toNat := by rw [BitVec.toNat_setWidth, Nat.mod_eq_of_lt (by omega)]
    exact ⟨hhours, hminutes, hregular, hceiling, hd.symm ▸ hlo, hd.symm ▸ hhi⟩
  case wrHasAlarm | wrAlarmEnabled | wrError | wrCeilingUp => exact ⟨hhours, hminutes, hregular, hceiling, hrate⟩

/-! ### STATUS -/

/-- A rejection sets BADCMD and a cause (R300). -/
theorem Status.noteReject_consistent {st : Status} (h : st.Consistent) (a : Cause) : (st.noteReject a).Consistent := by
  obtain ⟨hiff, hle⟩ := h
  obtain ⟨hlo, hhi⟩ := causeCode_bounds a
  have hne : causeCode a ≠ 0 := fun h0 => by simp [h0] at hlo
  unfold Status.noteReject
  cases hb : st.badcmd with
  | true => exact ⟨by simpa [hb] using hiff, hle⟩
  | false => exact ⟨by simpa using hne, hhi⟩

/-- Clearing BADCMD clears the cause (R283). -/
theorem Status.clearBits_consistent {st : Status} (h : st.Consistent) (d : Data) : (st.clearBits d).Consistent := by
  obtain ⟨hiff, hle⟩ := h
  unfold Status.clearBits
  cases hd : d.getLsbD 0 with
  | true => exact ⟨by simp, by simp⟩
  | false => exact ⟨by simpa using hiff, hle⟩

/-! ### A command -/

/-- All a command leaves of the Clock State and of STATUS. -/
theorem exec_clock_status_cases (h : exec i s = .next t) :
    (t.clock = s.clock ∧ t.status = s.status) ∨
      (∃ r, writeTarget i = some r ∧ r.inClock = true ∧ dataLegal i = true ∧
        t.clock = s.clock.store (fieldData (encode i)) r ∧ t.status = s.status) ∨
      (∃ d, t.clock = s.clock ∧ t.status = s.status.clearBits d) ∨
      (t.clock = s.clock ∧ t.status = s.status.noteReject .badValue) := by
  cases hl : dataLegal i with
  | false =>
    obtain ⟨hclock, _, hstatus⟩ := exec_rejected_keeps hl h
    exact .inr (.inr (.inr ⟨hclock, hstatus⟩))
  | true =>
    cases hi : writeTarget i with
    | none =>
      obtain ⟨hclock, hstatus, _⟩ := exec_read_keeps hi h
      exact .inl ⟨hclock, hstatus⟩
    | some r =>
      rcases writeTarget_cases hi with hr | ⟨d, rfl, _⟩
      · obtain rfl := Host.Outcome.next.inj ((exec_writeClock_of_legal hi hr hl s).symm.trans h)
        exact .inr (.inl ⟨r, rfl, hr, rfl, rfl, rfl⟩)
      · obtain rfl := Host.Outcome.next.inj ((exec_wrStatus_of_lt (of_decide_eq_true hl) s).symm.trans h)
        exact .inr (.inr (.inl ⟨d, rfl, rfl⟩))

/-- What a command does not touch of the invariant, it keeps. -/
theorem CommandWrites.inv {ack : Bool} (h : CommandWrites s t ack) (hs : s.Inv) (hclock : t.clock.InRange)
    (hstatus : t.status.Consistent) (hfifo : t.fifo.length ≤ s.cfg.evtDepth) : t.Inv := by
  obtain ⟨k, st, f, w, rfl, _⟩ := h
  obtain ⟨hwf, _, _, hsample, _, hunits⟩ := hs
  exact ⟨hwf, hclock, hstatus, hsample, hfifo, hunits⟩

theorem exec_keeps_inv (i : Instr) (hs : s.Inv) : ∃ t, exec i s = .next t ∧ t.Inv := by
  obtain ⟨t, h, hwrites⟩ := exec_commandWrites i s
  have hinv := hs
  obtain ⟨_, hclock, hstatus, _, hfifo, _⟩ := hs
  have hfifo' : t.fifo.length ≤ s.cfg.evtDepth := by
    obtain ⟨u, hu, hf⟩ := exec_next_fifo i s
    obtain rfl := Host.Outcome.next.inj (hu.symm.trans h)
    rcases hf with hf | ⟨_, hf⟩ <;> rw [hf]
    · exact hfifo
    · rw [List.length_tail]
      exact (Nat.sub_le _ _).trans hfifo
  have hclock' : t.clock.InRange := by
    rcases exec_clock_status_cases h with ⟨hk, _⟩ | ⟨r, hi, hr, hl, hk, _⟩ | ⟨d, hk, _⟩ | ⟨hk, _⟩ <;> rw [hk]
    · exact hclock
    · exact Clock.inRange_store hi hr hl hclock
    · exact hclock
    · exact hclock
  have hstatus' : t.status.Consistent := by
    rcases exec_clock_status_cases h with ⟨_, hst⟩ | ⟨_, _, _, _, _, hst⟩ | ⟨d, _, hst⟩ | ⟨_, hst⟩ <;> rw [hst]
    · exact hstatus
    · exact hstatus
    · exact Status.clearBits_consistent hstatus d
    · exact Status.noteReject_consistent hstatus .badValue
  exact ⟨t, h, hwrites.inv hinv hclock' hstatus' hfifo'⟩

theorem State.reject_inv (hs : s.Inv) (a : Cause) : (s.reject a).Inv := by
  obtain ⟨hwf, hclock, hstatus, hrest⟩ := hs
  exact ⟨hwf, hclock, Status.noteReject_consistent hstatus a, hrest⟩

theorem execWord_keeps_inv (w : Word) (hs : s.Inv) : ∃ t, execWord w s = .next t ∧ t.Inv := by
  rcases execWord_cases w s with ⟨i, _, he⟩ | ⟨a, _, he⟩
  · rw [he]
    exact exec_keeps_inv i hs
  · exact ⟨_, he, State.reject_inv hs a⟩

end

end Sys2Proof.Machine
end

section
/-! SUPPORT. The invariant under BD's step: what the rule of each phase leaves of BD's counters, of its samples and of the
pending edges (R210 to R225), and of the registers. -/

namespace Sys2Proof.Machine

/-! ### Counters and samples -/

/-- The counters and the samples of BD are in range. -/
def Bd.Counts (c : Config) (b : Bd) : Prop := bdCountOk c b = true ∧ sampleOk c b.s1 = true ∧ sampleOk c b.s2 = true

/-- R6: a pass and a hold last at least one tick. -/
theorem wf_passTimes {c : Config} (h : c.wf = true) : 1 ≤ c.tMeasureMax ∧ 1 ≤ c.tHoldMax := by
  simp only [Config.wf, Config.wfTimes, Bool.and_eq_true, decide_eq_true_eq] at h
  omega

section
variable {c : Config} {cnt : Nat} {lvl : Bool}

/-- R217, R218: what a pass gives is in range while its count is. -/
theorem sampleOk_of_poll {v : Option Nat} (hcnt : cnt < c.tMeasureMax) (h : pollSample c (cnt + 1) lvl = some v) :
    sampleOk c v = true := by
  unfold pollSample at h
  split at h
  · cases h
    simp only [sampleOk, Bool.and_eq_true, decide_eq_true_eq]
    omega
  · split at h
    · cases h
      rfl
    · cases h

/-- R217: a pass that goes on has not reached the cap. -/
theorem lt_of_poll_none (hcnt : cnt < c.tMeasureMax) (h : pollSample c (cnt + 1) lvl = none) : cnt + 1 < c.tMeasureMax := by
  unfold pollSample at h
  split at h
  · cases h
  · split at h
    · cases h
    · omega

end

section
variable {c : Config} {b : Bd}

/-- A count that has not run out stays in range as it falls: each phase bounds it from both sides or not at all. -/
theorem Bd.Counts.wait (h : b.Counts c) (hr : 2 ≤ b.rem) : Bd.Counts c { b with rem := b.rem - 1 } := by
  obtain ⟨hcount, hsamples⟩ := h
  refine ⟨?_, hsamples⟩
  unfold bdCountOk at hcount ⊢
  cases hp : b.phase <;>
    simp only [hp, Bool.and_eq_true, decide_eq_true_eq] at hcount ⊢ <;>
    grind

theorem bdCountOk_of_dis1 (hc : c.wf = true) (hp : b.phase = .dis1) (hr : b.rem = c.tDischarge) : bdCountOk c b = true := by
  obtain ⟨_, hdischarge⟩ := wf_pressTimes hc
  simp [bdCountOk, hp, hr, hdischarge]

theorem bdCountOk_of_dis2 (hc : c.wf = true) (htwo : c.doubleSample = true) (hp : b.phase = .dis2)
    (hr : b.rem = c.tDischarge) : bdCountOk c b = true := by
  obtain ⟨_, hdischarge⟩ := wf_pressTimes hc
  simp [bdCountOk, hp, hr, hdischarge, htwo]

theorem bdCountOk_of_disf (hc : c.wf = true) (hp : b.phase = .disf) (hr : b.rem = c.tDischarge) : bdCountOk c b = true := by
  obtain ⟨_, hdischarge⟩ := wf_pressTimes hc
  simp [bdCountOk, hp, hr, hdischarge]

theorem bdCountOk_of_debounce (hc : c.wf = true) (hp : b.phase = .debounce) (hr : b.rem = c.tDebounce) :
    bdCountOk c b = true := by
  obtain ⟨hdebounce, _⟩ := wf_pressTimes hc
  simp [bdCountOk, hp, hr, hdebounce]

theorem bdCountOk_meas1_iff (hp : b.phase = .meas1) : bdCountOk c b = true ↔ b.cnt < c.tMeasureMax := by
  simp [bdCountOk, hp]

theorem bdCountOk_meas2_iff (hp : b.phase = .meas2) :
    bdCountOk c b = true ↔ b.cnt < c.tMeasureMax ∧ c.doubleSample = true := by
  simp [bdCountOk, hp]

theorem bdCountOk_hold_iff (hp : b.phase = .hold) : bdCountOk c b = true ↔ b.cnt < c.tHoldMax := by
  simp [bdCountOk, hp]

theorem doubleSample_of_dis2 (h : bdCountOk c b = true) (hp : b.phase = .dis2) : c.doubleSample = true := by
  simp only [bdCountOk, hp, Bool.and_eq_true] at h
  exact h.2

end

/-! ### The last pass -/

section
variable {s : State} {v : Option Nat} (h : pollSample s.cfg (s.bd.cnt + 1) (s.level s.bd.line) = some v)
include h

/-- R217: the end of the only pass. -/
theorem measureStep1_of_only (hone : s.cfg.doubleSample = false) :
    measureStep1 s = enterHold (classify (s.setBd { s.bd with cnt := s.bd.cnt + 1, s1 := v })) := by
  rw [measureStep1, h]
  exact if_neg (Bool.eq_false_iff.mp hone)

/-- R217: the end of the second pass. -/
theorem measureStep2_of_end :
    measureStep2 s = enterHold (classify (s.setBd { s.bd with cnt := s.bd.cnt + 1, s2 := v })) := by
  rw [measureStep2, h]

end

/-! ### The registers -/

/-- R31: LAST_SAMPLE as packed is in accord with itself, if an absent sample is 0 and unmatched. -/
theorem lastSampleOk_pack (matched : Bool) (l : Line) (valid : Bool) (n : Nat)
    (h : valid = false → matched = false ∧ n = 0) : lastSampleOk (packLastSample matched l valid n) := by
  cases valid with
  | true => simp [lastSampleOk, packLastSample, getElem_flagBit]
  | false =>
    obtain ⟨rfl, rfl⟩ := h rfl
    cases l <;> decide

/-- From u to w BADCMD and its cause stayed, and LAST_SAMPLE did not lose its accord. -/
structure RegsSound (u w : State) : Prop where
  badcmd : w.status.badcmd = u.status.badcmd
  cause : w.status.cause = u.status.cause
  lastSample : lastSampleOk u.lastSample → lastSampleOk w.lastSample

theorem regsSound_of_kept {u w : State} (h : bdRegsKept u w) : RegsSound u w := by
  obtain ⟨_, hst, hls, _⟩ := h
  exact ⟨by rw [hst], by rw [hst], fun hok => hls ▸ hok⟩

theorem RegsSound.trans {u v w : State} (h : RegsSound u v) (k : RegsSound v w) : RegsSound u w :=
  ⟨k.badcmd.trans h.badcmd, k.cause.trans h.cause, fun hok => k.lastSample (h.lastSample hok)⟩

theorem regsSound_setBd (u : State) (b : Bd) : RegsSound u (u.setBd b) := ⟨rfl, rfl, id⟩

/-- R229: a push leaves LAST_SAMPLE, and of STATUS at most EVT_OVF. -/
theorem regsSound_pushEvent (s : State) (b : Button) (l : Line) : RegsSound s (s.pushEvent b l) := by
  rcases s.pushEvent_cases b l with ⟨_, h⟩ | ⟨_, h⟩ <;> rw [h] <;> exact ⟨rfl, rfl, id⟩

theorem regsSound_classifySample (s : State) (x : Option Nat) : RegsSound s (classifySample s x) := by
  rcases classifySample_cases s x with ⟨_, h⟩ | ⟨v, _, _, h⟩ | ⟨v, b, _, _, h⟩ <;> rw [h]
  · exact ⟨rfl, rfl, fun _ => lastSampleOk_pack false _ false 0 fun _ => ⟨rfl, rfl⟩⟩
  · exact ⟨rfl, rfl, fun _ => lastSampleOk_pack false _ true v nofun⟩
  · have hpack : RegsSound s (s.setLastSample (packLastSample true s.bd.line true v)) :=
      ⟨rfl, rfl, fun _ => lastSampleOk_pack true _ true v nofun⟩
    exact hpack.trans (regsSound_pushEvent _ b _)

/-! ### All a phase rule can do -/

/-- From u to w BD went on with the line it serves, counters in range, registers in accord and the edges as they were. -/
structure BdGoesOn (u w : State) : Prop where
  counts : w.bd.Counts u.cfg
  phase : w.bd.phase ≠ .idle
  line : w.bd.line = u.bd.line
  edge : ∀ l, w.edge l = u.edge l
  regs : RegsSound u w

/-- From u to w BD came to the idle check (R214, R225), counters in range. -/
def BdChecksIdle (u w : State) : Prop := ∃ b, b.Counts u.cfg ∧ b.phase = .idle ∧ w = idleCheck (u.setBd b)

section
variable {u : State}

theorem bdGoesOn_setBd {b : Bd} (hb : b.Counts u.cfg) (hp : b.phase ≠ .idle) (hl : b.line = u.bd.line) :
    BdGoesOn u (u.setBd b) := ⟨hb, hp, hl, u.setBd_edge b, regsSound_setBd u b⟩

theorem bdGoesOn_wait (h : u.bd.Counts u.cfg) (hp : u.bd.phase ≠ .idle) (hr : 2 ≤ u.bd.rem) :
    BdGoesOn u (u.setBd { u.bd with rem := u.bd.rem - 1 }) := bdGoesOn_setBd (h.wait hr) hp rfl

section
variable (hc : u.cfg.wf = true) (h : u.bd.Counts u.cfg)
include hc h

theorem bdGoesOn_endHold (timeout : Bool) : BdGoesOn u (endHold u timeout) := by
  obtain ⟨_, hsamples⟩ := h
  exact ⟨⟨bdCountOk_of_disf hc rfl rfl, hsamples⟩, BdPhase.noConfusion, rfl, fun l => by cases l <;> rfl, rfl, rfl, id⟩

omit h in
/-- A classification enters HOLD with count 0 and no edge touched. -/
theorem bdGoesOn_classify {b : Bd} (hs1 : sampleOk u.cfg b.s1 = true) (hs2 : sampleOk u.cfg b.s2 = true)
    (hl : b.line = u.bd.line) : BdGoesOn u (enterHold (classify (u.setBd b))) := by
  obtain ⟨_, hhold⟩ := wf_passTimes hc
  refine ⟨?_, BdPhase.noConfusion, ?_, fun l => ?_, ?_⟩
  · rw [enterHold, State.setBd_bd, classify_bd]
    exact ⟨(bdCountOk_hold_iff rfl).mpr hhold, hs1, hs2⟩
  · rw [enterHold, State.setBd_bd, classify_bd]
    exact hl
  · rw [enterHold, State.setBd_edge, classify_edge, State.setBd_edge]
  · exact ((regsSound_setBd u b).trans (regsSound_classifySample (u.setBd b) _)).trans (regsSound_setBd _ _)

/-- All the rule of a phase can do, from counters in range (R210). -/
theorem bdPhaseStep_cases : BdChecksIdle u (bdPhaseStep u) ∨ (u.bd.phase ≠ .idle ∧ BdGoesOn u (bdPhaseStep u)) := by
  have hcounts := h
  obtain ⟨hcount, hs1, hs2⟩ := h
  obtain ⟨hmeasure, _⟩ := wf_passTimes hc
  cases hp : u.bd.phase with
  | idle =>
    rw [bdPhaseStep_of_idle hp]
    exact .inl ⟨u.bd, hcounts, hp, rfl⟩
  | debounce =>
    rw [bdPhaseStep_of_debounce hp]
    rcases Nat.lt_or_ge 1 u.bd.rem with hr | hr
    · rw [debounceStep_of_wait hr]
      exact .inr ⟨BdPhase.noConfusion, bdGoesOn_wait hcounts (hp.trans_ne BdPhase.noConfusion) hr⟩
    · cases hl : u.level u.bd.line with
      | true =>
        rw [debounceStep_of_high hr hl]
        exact .inr ⟨BdPhase.noConfusion,
          bdGoesOn_setBd ⟨bdCountOk_of_dis1 hc rfl rfl, rfl, rfl⟩ BdPhase.noConfusion rfl⟩
      | false =>
        rw [debounceStep_of_low hr hl]
        exact .inl ⟨{ u.bd with phase := .idle, rem := u.bd.rem - 1 }, ⟨rfl, hs1, hs2⟩, rfl, rfl⟩
  | dis1 =>
    refine .inr ⟨BdPhase.noConfusion, ?_⟩
    rw [bdPhaseStep_of_dis1 hp]
    rcases Nat.lt_or_ge 1 u.bd.rem with hr | hr
    · rw [dischargeStep_of_wait hr]
      exact bdGoesOn_wait hcounts (hp.trans_ne BdPhase.noConfusion) hr
    · rw [dischargeStep_of_end hr]
      exact bdGoesOn_setBd ⟨(bdCountOk_meas1_iff rfl).mpr hmeasure, hs1, hs2⟩ BdPhase.noConfusion rfl
  | meas1 =>
    refine .inr ⟨BdPhase.noConfusion, ?_⟩
    have hcnt := (bdCountOk_meas1_iff hp).mp hcount
    cases hv : pollSample u.cfg (u.bd.cnt + 1) (u.level u.bd.line) with
    | none =>
      rw [bdPhaseStep_of_poll_none (.inl hp) hv]
      exact bdGoesOn_setBd ⟨(bdCountOk_meas1_iff (b := { u.bd with cnt := u.bd.cnt + 1 }) hp).mpr (lt_of_poll_none hcnt hv), hs1, hs2⟩
        (hp.trans_ne BdPhase.noConfusion) rfl
    | some v =>
      rw [bdPhaseStep_of_meas1 hp]
      cases htwo : u.cfg.doubleSample with
      | true =>
        rw [measureStep1_of_first hv htwo]
        exact bdGoesOn_setBd ⟨bdCountOk_of_dis2 hc htwo rfl rfl, sampleOk_of_poll hcnt hv, hs2⟩ BdPhase.noConfusion rfl
      | false =>
        rw [measureStep1_of_only hv htwo]
        exact bdGoesOn_classify hc (sampleOk_of_poll hcnt hv) hs2 rfl
  | dis2 =>
    refine .inr ⟨BdPhase.noConfusion, ?_⟩
    rw [bdPhaseStep_of_dis2 hp]
    rcases Nat.lt_or_ge 1 u.bd.rem with hr | hr
    · rw [dischargeStep_of_wait hr]
      exact bdGoesOn_wait hcounts (hp.trans_ne BdPhase.noConfusion) hr
    · rw [dischargeStep_of_end hr]
      have htwo := doubleSample_of_dis2 hcount hp
      exact bdGoesOn_setBd ⟨(bdCountOk_meas2_iff rfl).mpr ⟨hmeasure, htwo⟩, hs1, hs2⟩ BdPhase.noConfusion rfl
  | meas2 =>
    refine .inr ⟨BdPhase.noConfusion, ?_⟩
    obtain ⟨hcnt, htwo⟩ := (bdCountOk_meas2_iff hp).mp hcount
    cases hv : pollSample u.cfg (u.bd.cnt + 1) (u.level u.bd.line) with
    | none =>
      rw [bdPhaseStep_of_poll_none (.inr hp) hv]
      exact bdGoesOn_setBd ⟨(bdCountOk_meas2_iff (b := { u.bd with cnt := u.bd.cnt + 1 }) hp).mpr ⟨lt_of_poll_none hcnt hv, htwo⟩, hs1, hs2⟩
        (hp.trans_ne BdPhase.noConfusion) rfl
    | some v =>
      rw [bdPhaseStep_of_meas2 hp, measureStep2_of_end hv]
      exact bdGoesOn_classify hc hs1 (sampleOk_of_poll hcnt hv) rfl
  | hold =>
    refine .inr ⟨BdPhase.noConfusion, ?_⟩
    rw [bdPhaseStep_of_hold hp]
    cases hl : u.level u.bd.line with
    | false =>
      rw [holdStep_of_low hl]
      exact bdGoesOn_endHold hc hcounts false
    | true =>
      by_cases hcap : u.bd.cnt + 1 = u.cfg.tHoldMax
      · rw [holdStep_of_cap hl hcap]
        exact bdGoesOn_endHold hc hcounts true
      · rw [holdStep_of_held hl hcap]
        have hcnt := (bdCountOk_hold_iff hp).mp hcount
        exact bdGoesOn_setBd ⟨(bdCountOk_hold_iff (b := { u.bd with cnt := u.bd.cnt + 1 }) hp).mpr (Nat.lt_of_le_of_ne hcnt hcap), hs1, hs2⟩
          (hp.trans_ne BdPhase.noConfusion) rfl
  | disf =>
    rw [bdPhaseStep_of_disf hp]
    rcases Nat.lt_or_ge 1 u.bd.rem with hr | hr
    · rw [finalDischargeStep_of_wait hr]
      exact .inr ⟨BdPhase.noConfusion, bdGoesOn_wait hcounts (hp.trans_ne BdPhase.noConfusion) hr⟩
    · rw [finalDischargeStep_of_end hr]
      exact .inl ⟨{ u.bd with phase := .idle, rem := u.bd.rem - 1 }, ⟨rfl, hs1, hs2⟩, rfl, rfl⟩

end

/-! ### Counters and pending edges after BD's step -/

/-- BD's counters are in range; in IDLE nothing is pending, and the line BD serves is never pending (R214, R230). -/
structure BdSettled (c : Config) (w : State) : Prop where
  counts : w.bd.Counts c
  idle : w.bd.phase = .idle → ∀ l, (w.edge l).pending = false
  served : (w.edge w.bd.line).pending = false

theorem BdChecksIdle.regs {w : State} (h : BdChecksIdle u w) : RegsSound u w := by
  obtain ⟨b, _, _, rfl⟩ := h
  exact regsSound_of_kept (bdRegsKept_idleCheck (u.setBd b))

/-- R214: the idle check leaves nothing pending in IDLE, and takes the edge of the line it serves. -/
theorem BdChecksIdle.settled {w : State} (hc : u.cfg.wf = true) (h : BdChecksIdle u w) : BdSettled u.cfg w := by
  obtain ⟨b, ⟨hcount, hs1, hs2⟩, hp, rfl⟩ := h
  rcases idleCheck_cases (u.setBd b) with ⟨_, hi⟩ | ⟨_, _, hi⟩ | ⟨h0, h1, hi⟩ <;> rw [hi]
  · exact ⟨⟨bdCountOk_of_debounce hc rfl rfl, hs1, hs2⟩, nofun, rfl⟩
  · exact ⟨⟨bdCountOk_of_debounce hc rfl rfl, hs1, hs2⟩, nofun, rfl⟩
  · have hnone (l : Line) : ((u.setBd b).edge l).pending = false := by
      cases l
      · exact h0
      · exact h1
    exact ⟨⟨hcount, hs1, hs2⟩, fun _ => hnone, hnone _⟩

theorem BdGoesOn.settled {w : State} (h : BdGoesOn u w) (hserved : (u.edge u.bd.line).pending = false) :
    BdSettled u.cfg w :=
  ⟨h.counts, fun hp => absurd hp h.phase, by rw [h.edge, h.line]; exact hserved⟩

/-- A line that BD serves catches no edge: its pin is not armed (R212, R213). -/
theorem not_pending_of_inv {s : State} (hs : s.Inv) (hp : s.bd.phase ≠ .idle) :
    ((edgeDetect s).edge s.bd.line).pending = false := by
  obtain ⟨_, _, _, _, _, _, _, _, ⟨_, _, _, hkeys, _⟩, harmed0, harmed1, _, hpend⟩ := hs
  obtain ⟨hkey0, hkey1⟩ | ⟨hidle, _⟩ := hkeys
  case inr => exact absurd hidle hp
  have harmed : (s.edge s.bd.line).armedPrev = decide (keyMode s.bd.phase s.bd.line s.bd.line = .inPulldownIrq) := by
    generalize s.bd.line = l at *
    cases l
    · exact harmed0.trans (by rw [hkey0])
    · exact harmed1.trans (by rw [hkey1])
  rw [keyMode, if_pos rfl, decide_eq_false (servicedMode_ne_irq hp)] at harmed
  rw [edgeDetect_edge]
  exact Edge.sample_of_disarmed hpend harmed _

/-- What a tick shows of BD settled is BD's part of the invariant. -/
theorem BdShows.inv {w t : State} (h : BdShows w t) (hw : BdSettled w.cfg w) : t.bd.Inv w.cfg ∧ t.EdgesOk := by
  obtain ⟨⟨hcount, hs1, hs2⟩, hidle, hserved⟩ := hw
  have hpend := h.pending
  have harmed := h.armed
  rw [State.EdgesOk, h.bd]
  refine ⟨⟨hcount, hs1, hs2, .inl ⟨rfl, rfl⟩, rfl⟩, harmed .l0, harmed .l1, fun hp => ?_, (hpend _).trans hserved⟩
  exact ⟨(hpend .l0).trans (hidle hp .l0), (hpend .l1).trans (hidle hp .l1)⟩

/-- A tick keeps BD's part of the invariant, and the registers in accord. -/
theorem tick_keeps_bd_inv {s t : State} (hs : s.Inv) (h : tick s = .next t) :
    (t.bd.Inv s.cfg ∧ t.EdgesOk) ∧ RegsSound s t := by
  obtain ⟨u, hu, ht⟩ := tick_bd h
  have hinv := hs
  obtain ⟨hwf, _, _, _, _, _, _, _, ⟨hcount, hs1, hs2, _⟩, _⟩ := hs
  have hwf' : u.cfg.wf = true := hu.cfg ▸ hwf
  have hcounts : u.bd.Counts u.cfg := by rw [hu.bd, hu.cfg]; exact ⟨hcount, hs1, hs2⟩
  have hstep : BdSettled u.cfg (bdPhaseStep u) ∧ RegsSound u (bdPhaseStep u) := by
    rcases bdPhaseStep_cases hwf' hcounts with hidle | ⟨hp, hon⟩
    · exact ⟨hidle.settled hwf', hidle.regs⟩
    · rw [hu.bd] at hp
      exact ⟨hon.settled (by rw [hu.edge, hu.bd]; exact not_pending_of_inv hinv hp), hon.regs⟩
  obtain ⟨hsettled, hregs⟩ := hstep
  have hcfg : (bdPhaseStep u).cfg = u.cfg := (bdWrites_bdPhaseStep u).1
  rw [← hcfg] at hsettled
  rw [← hu.cfg, ← hcfg]
  exact ⟨ht.inv hsettled, (regsSound_of_kept hu.regs).trans (hregs.trans (regsSound_of_kept ht.regs))⟩

end

end Sys2Proof.Machine
end

section
/-! PROOFS. O59 and O60: every step keeps the invariant and answers: RESET, a command, or a tick unit by unit. -/

namespace Sys2Proof.Machine

section
variable {s t : State}

theorem Status.consistent_congr {st st' : Status} (hb : st'.badcmd = st.badcmd) (hc : st'.cause = st.cause)
    (h : st.Consistent) : st'.Consistent := by
  rwa [Status.Consistent, hb, hc]

/-- R303, R144, R175, R187: from the invariant every unit's step ends, so the tick answers, each display unit in its
invariant. -/
theorem tick_of_inv (hs : s.Inv) :
    ∃ t, tick s = .next t ∧ t.mx.Inv s.cfg ∧ t.sr.Inv s.cfg ∧ t.pw.Inv s.cfg := by
  obtain ⟨hwf, hclock, _, _, _, hmx, hsr, hpw, _⟩ := hs
  obtain ⟨m, hm, hm'⟩ := mxStep_keeps_inv hclock hmx
  obtain ⟨r, hr, hr'⟩ := srStep_keeps_inv hwf s.clock hsr
  obtain ⟨p, hp, hp'⟩ := pwStep_keeps_inv hclock hpw
  refine ⟨_, tick_of_steps hm hr hp, ?_, ?_, ?_⟩
  · rwa [finishTick_mx]
  · rwa [finishTick_sr]
  · rwa [finishTick_pw]

theorem tick_keeps_inv (hs : s.Inv) : ∃ t, tick s = .next t ∧ t.Inv := by
  obtain ⟨t, h, hmx, hsr, hpw⟩ := tick_of_inv hs
  obtain ⟨⟨hbd, hedges⟩, hregs⟩ := tick_keeps_bd_inv hs h
  obtain ⟨hwf, hclock, hstatus, hsample, hfifo, _⟩ := hs
  refine ⟨t, h, ?_⟩
  unfold State.Inv
  rw [tick_cfg h, tick_clock h]
  refine ⟨hwf, hclock, Status.consistent_congr hregs.badcmd hregs.cause hstatus, hregs.lastSample hsample, ?_, hmx, hsr,
    hpw, hbd, hedges⟩
  rcases fifoAppends_tick h with hf | ⟨hlt, e, hf⟩ <;> rw [hf]
  · exact hfifo
  · rw [List.length_append]
    exact hlt

theorem resetBoundary_inv (hs : s.Inv) : s.resetBoundary.Inv := by
  obtain ⟨hwf, _⟩ := hs
  exact State.resetWith_inv hwf

/-- Every step from the invariant answers with a state that meets it. -/
theorem step_keeps_inv (hs : s.Inv) : ∃ t, step s = .next t ∧ t.Inv := by
  rcases step_cases s with ⟨_, h⟩ | ⟨_, w, rest, _, h⟩ | ⟨_, _, h⟩ <;> rw [h]
  · exact ⟨_, rfl, resetBoundary_inv hs⟩
  · exact execWord_keeps_inv w (State.inv_setWorld _ |>.mpr hs)
  · exact tick_keeps_inv hs

end

/-- Settles O59: the state the step answers with is the one of `step_keeps_inv`. -/
theorem stepKeepsTheInvariant : Obligations.StepKeepsTheInvariant := by
  intro s t hs h
  obtain ⟨u, hu, hinv⟩ := step_keeps_inv hs
  obtain rfl := Host.Outcome.next.inj (hu.symm.trans h)
  exact hinv

/-- Settles O60: no unit's loop and no command stops the block. -/
theorem blockNeverStops : Obligations.BlockNeverStops := fun _ => step_keeps_inv

end Sys2Proof.Machine
end

section
/-! PROOFS. O7 and O8: which command a step runs, and when it is the tick (R67, R260). -/

namespace Sys2Proof.Machine

/-- R81: the first command issued at boundary k is taken, those of other boundaries before it wait. -/
theorem takeCmd_append {k : Nat} {w : Word} {a : List (Nat × Word)} (ha : ∀ p ∈ a, p.1 ≠ k) (b : List (Nat × Word)) :
    takeCmd k (a ++ (k, w) :: b) = some (w, a ++ b) := by
  induction a with
  | nil => exact takeCmd_cons_now k w b
  | cons p a ih =>
    obtain ⟨hp, ha⟩ := List.forall_mem_cons.mp ha
    rw [List.cons_append, takeCmd, if_neg hp, ih ha]
    rfl

theorem execWord_of_cmd {w : Word} {i : Instr} (h : decode w = .cmd i) (s : State) : execWord w s = exec i s := by
  rw [execWord, h]

/-- R67: with no command left at the boundary and RESET not asserted, the step is the tick. -/
theorem step_of_no_cmd {s : State} (hr : s.resetAsserted = false) (hc : s.nextCmd = none) : step s = tick s := by
  unfold step stepOnce
  simp [hr, hc]

/-- Settles O7: the step executes the word taken, and a word that decodes is its command. -/
theorem stepRunsTheDecodedCommand : Obligations.StepRunsTheDecodedCommand := by
  intro s w rest i hr hc hw
  exact (step_of_nextCmd hr hc).trans (execWord_of_cmd hw _)

/-- Settles O8: the search for a command of the boundary takes the first one, or finds none. -/
theorem commandsRunInIssueOrder : Obligations.CommandsRunInIssueOrder := by
  refine ⟨fun s a b w hcmds ha => ?_, fun s hnone hr => step_of_no_cmd hr (takeCmd_eq_none.mpr hnone)⟩
  rw [State.nextCmd, hcmds]
  exact takeCmd_append ha b

end Sys2Proof.Machine
end

section
/-! PROOFS. O14 to O17, O20 and O21: the reads of STATUS, of EVENT and of the diagnostic registers, and the writes of the numbers. -/

namespace Sys2Proof.Machine

/-! ### STATUS -/

/-- STATUS as a number: the four sticky bits and EVT_NONEMPTY, EVT_COUNT from bit 8 on, BADCMD_CAUSE from bit 12 on (R30). -/
theorem statusWord_toNat (st : Status) {count : Nat} (h : count ≤ 15) : (statusWord st count).toNat =
    st.badcmd.toNat + 2 * st.evtOvf.toNat + 4 * st.noMatch.toNat + 8 * st.noSample.toNat +
      16 * (decide (0 < count)).toNat + 256 * count + 4096 * st.cause.toNat := by
  have hflags (b0 b1 b2 b3 b4 : Bool) :
      (flagBit 0 b0 ||| flagBit 1 b1 ||| flagBit 2 b2 ||| flagBit 3 b3 ||| flagBit 4 b4).toNat =
        b0.toNat + 2 * b1.toNat + 4 * b2.toNat + 8 * b3.toNat + 16 * b4.toNat := by
    revert b0 b1 b2 b3 b4
    decide
  have hcount : (BitVec.ofNat 24 count <<< 8).toNat = 2 ^ 8 * count := by
    rw [BitVec.toNat_shiftLeft, BitVec.toNat_ofNat, Nat.shiftLeft_eq]
    omega
  have hcause : (st.cause.setWidth 24 <<< 12).toNat = 2 ^ 12 * st.cause.toNat := by
    rw [BitVec.toNat_shiftLeft, BitVec.toNat_setWidth, Nat.shiftLeft_eq]
    omega
  have h0 := st.badcmd.toNat_le
  have h1 := st.evtOvf.toNat_le
  have h2 := st.noMatch.toNat_le
  have h3 := st.noSample.toNat_le
  have h4 := (decide (0 < count)).toNat_le
  rw [statusWord, BitVec.toNat_or, BitVec.toNat_or, hflags, hcount, hcause, Nat.or_comm _ (2 ^ 8 * count),
    ← Nat.two_pow_add_eq_or_of_lt (by omega), Nat.or_comm, ← Nat.two_pow_add_eq_or_of_lt (by omega)]
  omega

/-- Settles O14: the read answers the STATUS word, whose fields do not overlap. -/
theorem statusReadAnswersEveryField : Obligations.StatusReadAnswersEveryField := by
  refine ⟨rowDecodes_of_decodeRead (a := 0x9) rfl, fun s hs => ?_,
    exec_readOf_answers (r := .status) (n := 0) (by decide) ?_⟩
  · refine (exec_readOf_answers (r := .status) (by decide) (statusWord_toNat s.status hs)).trans ?_
    simp only [Nat.add_assoc]
  · show (statusWord ⟨false, false, false, false, 0⟩ 0).toNat = 0
    decide

/-! ### EVENT -/

/-- EVENT as a number: the code, VALID in bit 4 and LINE in bit 5 (R33). -/
theorem packEvent_toNat (e : Event) (code : BitVec 4) :
    (packEvent e code).toNat = code.toNat + 16 + 32 * (lineBit e.line).toNat := by
  have hbits (code : BitVec 4) (line : Bool) :
      (code.setWidth 24 ||| flagBit 4 true ||| flagBit 5 line).toNat = code.toNat + 16 + 32 * line.toNat := by
    revert code line
    decide
  exact hbits code (lineBit e.line)

/-- R271: an empty FIFO stays empty. -/
theorem State.popEvent_of_nil {s : State} (h : s.fifo = []) : s.popEvent = s := by
  rw [State.popEvent, h, List.tail_nil, ← h]
  rfl

/-- R271: the port of an empty FIFO shows 0. -/
theorem exec_rdEvent_of_nil {s : State} (h : s.fifo = []) : exec .rdEvent s = .next (s.answered 0x80000000) := by
  have hport : (s.regValue .event).toNat = 0 := by
    rw [State.regValue, State.eventPort, h]
    rfl
  rw [exec_rdEvent, State.popEvent_of_nil (s := s.readReg .event) h, s.readReg_eq .event hport]
  rfl

/-- R271: the port shows the head, which the read removes. -/
theorem exec_rdEvent_of_cons {s : State} {e : Event} {rest : List Event} (h : s.fifo = e :: rest) :
    exec .rdEvent s = .next ({ s with fifo := rest }.answered
      (BitVec.ofNat 32 (2 ^ 31 + (buttonCode e.button).toNat + 16 + 32 * (lineBit e.line).toNat))) := by
  have hport : s.regValue .event = packEvent e (buttonCode e.button) := by rw [State.regValue, State.eventPort, h]
  have hvalue := (congrArg BitVec.toNat hport).trans (packEvent_toNat e (buttonCode e.button))
  rw [exec_rdEvent, s.readReg_eq .event hvalue, ← Nat.add_assoc, ← Nat.add_assoc, State.popEvent]
  show Host.Outcome.next (State.setFifo _ s.fifo.tail) = _
  rw [h]
  rfl

/-- Settles O15: the two cases of the FIFO, and the codes in R228's order. -/
theorem eventReadPopsTheOldest : Obligations.EventReadPopsTheOldest :=
  ⟨rowDecodes_of_decodeRead (a := 0xA) rfl, fun _ => exec_rdEvent_of_nil,
    fun _ _ _ h => ⟨_, exec_rdEvent_of_cons h, rfl, rfl⟩, by decide⟩

/-! ### The diagnostic registers -/

/-- Settles O16: both are read as stored, and are 0 at reset. -/
theorem diagnosticReadsAnswerTheRegister : Obligations.DiagnosticReadsAnswerTheRegister :=
  ⟨readRow (r := .lastSample) (by decide) fun _ => rfl, readRow (r := .pressDuration) (by decide) fun _ => rfl,
    exec_readOf_answers (r := .lastSample) (n := 0) (by decide) rfl,
    exec_readOf_answers (r := .pressDuration) (n := 0) (by decide) rfl⟩

/-! ### The writes of a number -/

/-- R274 to R281: legal data is stored in the n bits of the register that upd writes. -/
theorem exec_number_of_legal {i : Instr} {s : State} {d : Data} {n : Nat} {legal : Bool} {upd : BitVec n → Clock}
    (h : exec i s = .next (s.writeClock legal (upd (d.setWidth n)))) (hl : legal = true) :
    exec i s = .next ({ s with clock := upd (BitVec.ofNat n d.toNat) }.answered 0x80000000) := by
  rw [h, s.writeClock_of_legal hl, BitVec.ofNat_toNat]

/-- Settles O17: the legal hours and minutes are stored, every other value is rejected. -/
theorem timeWritesStoreOrReject : Obligations.TimeWritesStoreOrReject :=
  ⟨⟨rowDecodesWith_of_decodeWrite (a := 0x0) fun _ => rfl,
      fun s d hd => exec_number_of_legal (upd := fun v => { s.clock with hours := v }) rfl ((dataAtMost_iff 23 d).mpr hd),
      fun s d hd => exec_of_illegal (i := .wrHours d) (decide_eq_false (Nat.not_le.mpr hd)) s⟩,
    ⟨rowDecodesWith_of_decodeWrite (a := 0x1) fun _ => rfl,
      fun s d hd => exec_number_of_legal (upd := fun v => { s.clock with minutes := v }) rfl ((dataAtMost_iff 59 d).mpr hd),
      fun s d hd => exec_of_illegal (i := .wrMinutes d) (decide_eq_false (Nat.not_le.mpr hd)) s⟩⟩

/-- R151: dim 0 leaves no on-time. -/
theorem pwmTiming_zero_colOn (rate : Nat) : (pwmTiming rate 0).colOn = 0 := by
  simp [pwmTiming]

/-- R151: dim 100 leaves no pause. -/
theorem pwmTiming_hundred_pause (rate : Nat) : (pwmTiming rate 100).pause = 0 := by
  simp [pwmTiming]

/-- Settles O20: both dims take 0 to 100, and the timing of the two ends. -/
theorem dimWritesStoreOrReject : Obligations.DimWritesStoreOrReject :=
  ⟨⟨rowDecodesWith_of_decodeWrite (a := 0x5) fun _ => rfl,
      fun s d hd => exec_number_of_legal (upd := fun v => { s.clock with regularDim := v }) rfl
        ((dataAtMost_iff 100 d).mpr hd),
      fun s d hd => exec_of_illegal (i := .wrRegularDim d) (decide_eq_false (Nat.not_le.mpr hd)) s,
      fun rate => ⟨pwmTiming_zero_colOn rate, pwmTiming_hundred_pause rate⟩⟩,
    ⟨rowDecodesWith_of_decodeWrite (a := 0x6) fun _ => rfl,
      fun s d hd => exec_number_of_legal (upd := fun v => { s.clock with ceilingDim := v }) rfl
        ((dataAtMost_iff 100 d).mpr hd),
      fun s d hd => exec_of_illegal (i := .wrCeilingDim d) (decide_eq_false (Nat.not_le.mpr hd)) s⟩⟩

/-- Settles O21: the rates are 1 to 142857, and data outside them is illegal. -/
theorem rateWriteStoresOrRejects : Obligations.RateWriteStoresOrRejects := by
  refine ⟨rowDecodesWith_of_decodeWrite (a := 0x7) fun _ => rfl,
    fun s d hlo hhi => exec_number_of_legal (upd := fun v => { s.clock with refreshRate := v }) rfl
      ((dataIsRate_iff d).mpr ⟨hlo, hhi⟩), fun s d hd => exec_of_illegal (Bool.eq_false_iff.mpr fun hl => ?_) s⟩
  obtain ⟨hlo, hhi⟩ := (dataIsRate_iff d).mp hl
  omega

end Sys2Proof.Machine
end

section
/-! PROOFS. O47: the discharges and the polls, each from what a tick does in its phase (R216, R217). -/

namespace Sys2Proof.Machine

/-- R217: the two ways a poll ends its pass. -/
theorem poll_of_outcome {c : Config} {n : Nat} {lvl : Bool} {v : Option Nat}
    (h : (lvl = true ∧ v = some n) ∨ (lvl = false ∧ n = c.tMeasureMax ∧ v = none)) : pollSample c n lvl = some v := by
  rcases h with ⟨rfl, rfl⟩ | ⟨rfl, hcap, rfl⟩
  · rfl
  · exact (if_neg Bool.false_ne_true).trans (if_pos hcap)

theorem poll_none_of_low {c : Config} {n : Nat} {lvl : Bool} (hl : lvl = false) (hn : n ≠ c.tMeasureMax) :
    pollSample c n lvl = none := by
  subst hl
  exact (if_neg Bool.false_ne_true).trans (if_neg hn)

section
variable {s t : State} (h : tick s = .next t)
include h

/-- R216: all a tick of a discharge before a pass does. -/
theorem tick_of_discharge (hp : s.bd.phase = .dis1 ∨ s.bd.phase = .dis2) :
    (2 ≤ s.bd.rem ∧ BdMoves s t { s.bd with rem := s.bd.rem - 1 }) ∨
      (s.bd.rem ≤ 1 ∧ BdMoves s t
        { s.bd with rem := s.bd.rem - 1, phase := if s.bd.phase = .dis1 then .meas1 else .meas2, cnt := 0 }) := by
  rcases Nat.lt_or_ge 1 s.bd.rem with hr | hr
  · exact .inl ⟨hr, tick_of_discharge_wait h hp hr⟩
  · refine .inr ⟨hr, ?_⟩
    rcases hp with hp | hp
    · rw [if_pos hp]
      exact tick_of_dis1_end h hp hr
    · rw [if_neg (hp.trans_ne BdPhase.noConfusion)]
      exact tick_of_dis2_end h hp hr

section
variable {v : Option Nat} (hv : pollSample s.cfg (s.bd.cnt + 1) (s.level s.bd.line) = some v)
include hv

/-- R217: the only pass leaves its sample. -/
theorem tick_bd_of_onlyPass (hp : s.bd.phase = .meas1) (hone : s.cfg.doubleSample = false) :
    t.bd = Bd.emit { s.bd with cnt := 0, s1 := v, phase := .hold } s.cfg := by
  obtain ⟨u, hu, ht⟩ := tick_bd h
  have hcfg : (bdPhaseStep u).cfg = s.cfg := (bdWrites_bdPhaseStep u).1.trans hu.cfg
  rw [ht.bd, hcfg, bdPhaseStep_of_meas1 (hu.bd ▸ hp),
    measureStep1_of_only (by rw [hu.cfg, hu.level, hu.bd, hv]) (hu.cfg ▸ hone), enterHold, State.setBd_bd, classify_bd,
    State.setBd_bd, hu.bd]

/-- R217: the second pass leaves its sample beside the first's. -/
theorem tick_bd_of_secondPass (hp : s.bd.phase = .meas2) :
    t.bd = Bd.emit { s.bd with cnt := 0, s2 := v, phase := .hold } s.cfg := by
  obtain ⟨u, hu, ht⟩ := tick_bd h
  have hcfg : (bdPhaseStep u).cfg = s.cfg := (bdWrites_bdPhaseStep u).1.trans hu.cfg
  rw [ht.bd, hcfg, bdPhaseStep_of_meas2 (hu.bd ▸ hp), measureStep2_of_end (by rw [hu.cfg, hu.level, hu.bd, hv]),
    enterHold, State.setBd_bd, classify_bd, State.setBd_bd, hu.bd]

end

/-- R217: no poll, and no end of a pass, touches PRESS_DURATION, the line or the latched edges. -/
theorem tick_of_poll_keeps (hp : s.bd.phase = .meas1 ∨ s.bd.phase = .meas2) :
    t.pressDuration = s.pressDuration ∧ t.bd.line = s.bd.line ∧ pendingKept s t := by
  have hlastPass {v : Option Nat} (hlast : inLastPass s = true)
      (hv : pollSample s.cfg (s.bd.cnt + 1) (s.level s.bd.line) = some v) :
      t.pressDuration = s.pressDuration ∧ t.bd.line = s.bd.line ∧ pendingKept s t := by
    obtain ⟨⟨_, _, _, hpd⟩, hpend, _, _, hline⟩ := tick_of_lastPass h hlast hv
    exact ⟨hpd.trans (classifySample_pressDuration s _), hline, hpend⟩
  have hmove {b : Bd} (hm : BdMoves s t b) (hl : b.line = s.bd.line) :
      t.pressDuration = s.pressDuration ∧ t.bd.line = s.bd.line ∧ pendingKept s t := by
    obtain ⟨_, _, _, hpd⟩ := hm.regs
    exact ⟨hpd, hm.line.trans hl, hm.pending⟩
  cases hv : pollSample s.cfg (s.bd.cnt + 1) (s.level s.bd.line) with
  | none => exact hmove (tick_of_poll_none h hp hv) rfl
  | some v =>
    rcases hp with hp | hp
    · cases htwo : s.cfg.doubleSample with
      | true => exact hmove (tick_of_firstPass h hp htwo hv) rfl
      | false => exact hlastPass (by simp [inLastPass, hp, htwo]) hv
    · exact hlastPass (by simp [inLastPass, hp]) hv

end

/-- Settles O47: a discharge counts down or begins its pass, a poll counts up or ends its pass, and which pass it was decides what
follows. -/
theorem measurePollRule : Obligations.MeasurePollRule := by
  intro s t h
  refine ⟨fun hp => ?discharge, tick_of_poll_keeps h, fun hp v hout => ?first, fun hp v hout => ?second,
    fun hp hl hcap => ?on⟩
  case discharge =>
    rcases tick_of_discharge h hp with ⟨hr, hm⟩ | ⟨hr, hm⟩
    · exact ⟨hm.regs, hm.pending, hm.line, hm.s1, hm.s2, fun _ => ⟨hm.phase, hm.rem⟩, fun h1 => by omega⟩
    · exact ⟨hm.regs, hm.pending, hm.line, hm.s1, hm.s2, fun h2 => by omega, fun _ => ⟨hm.phase, hm.cnt⟩⟩
  case first =>
    have hv := poll_of_outcome hout
    cases htwo : s.cfg.doubleSample with
    | true =>
      have hm := tick_of_firstPass h hp htwo hv
      obtain ⟨hf, hst, hls, _⟩ := hm.regs
      exact ⟨hm.s1, hm.s2, fun _ => ⟨hm.phase, hm.rem, hf, hst, hls⟩, nofun⟩
    | false =>
      rw [tick_bd_of_onlyPass h hv hp htwo]
      exact ⟨rfl, rfl, nofun, fun _ => ⟨rfl, rfl⟩⟩
  case second =>
    rw [tick_bd_of_secondPass h (poll_of_outcome hout) hp]
    exact ⟨rfl, rfl, rfl, rfl⟩
  case on =>
    have hm := tick_of_poll_none h hp (poll_none_of_low hl hcap)
    obtain ⟨hf, hst, hls, _⟩ := hm.regs
    exact ⟨hm.phase, hm.cnt, hm.s1, hm.s2, hf, hst, hls⟩

end Sys2Proof.Machine
end

section
/-! SUPPORT. What BD reads: from two states that agree on it, BD's step leaves states that agree, register by register (R210,
R315). -/

namespace Sys2Proof.Machine

/-- s and u agree on what BD reads for its own state and its edges; the FIFO agrees if F holds, STATUS, which a full FIFO writes, if
S holds besides, LAST_SAMPLE if L does and PRESS_DURATION if P does. -/
structure BdAgree (F S L P : Prop) (s u : State) : Prop where
  cfg : u.cfg = s.cfg
  bd : u.bd = s.bd
  edge : ∀ l, u.edge l = s.edge l
  level : ∀ l, u.level l = s.level l
  fifo : F → u.fifo = s.fifo
  status : S → F → u.status = s.status
  lastSample : L → u.lastSample = s.lastSample
  pressDuration : P → u.pressDuration = s.pressDuration

section
variable {F S L P : Prop} {s u : State} (h : BdAgree F S L P s u)
include h

/-! ### The setters -/

theorem BdAgree.setBd (b : Bd) : BdAgree F S L P (s.setBd b) (u.setBd b) where
  cfg := h.cfg
  bd := rfl
  edge l := by rw [State.setBd_edge, State.setBd_edge, h.edge]
  level := h.level
  fifo := h.fifo
  status := h.status
  lastSample := h.lastSample
  pressDuration := h.pressDuration

theorem BdAgree.setEdges (e0 e1 : Edge) : BdAgree F S L P (s.setEdges e0 e1) (u.setEdges e0 e1) :=
  { h with edge := fun l => by cases l <;> rfl }

theorem BdAgree.setEdge (l : Line) (e : Edge) : BdAgree F S L P (s.setEdge l e) (u.setEdge l e) := by
  have h0 : u.edge0 = s.edge0 := h.edge .l0
  have h1 : u.edge1 = s.edge1 := h.edge .l1
  cases l with
  | l0 =>
    show BdAgree F S L P (s.setEdges e s.edge1) (u.setEdges e u.edge1)
    rw [h1]
    exact h.setEdges e s.edge1
  | l1 =>
    show BdAgree F S L P (s.setEdges s.edge0 e) (u.setEdges u.edge0 e)
    rw [h0]
    exact h.setEdges s.edge0 e

/-- One field of STATUS written. -/
theorem BdAgree.setStatus {f : Status → Status} : BdAgree F S L P (s.setStatus (f s.status)) (u.setStatus (f u.status)) :=
  { h with edge := fun l => by
             cases l with
             | l0 => exact h.edge .l0
             | l1 => exact h.edge .l1
           status := fun hS hF => congrArg f (h.status hS hF) }

theorem BdAgree.setLastSample (v : Data) : BdAgree F S L P (s.setLastSample v) (u.setLastSample v) :=
  { h with edge := fun l => by
             cases l with
             | l0 => exact h.edge .l0
             | l1 => exact h.edge .l1
           lastSample := fun _ => rfl }

theorem BdAgree.setPressDuration (v : Data) : BdAgree F S L P (s.setPressDuration v) (u.setPressDuration v) :=
  { h with edge := fun l => by
             cases l with
             | l0 => exact h.edge .l0
             | l1 => exact h.edge .l1
           pressDuration := fun _ => rfl }

/-! ### The operations -/

/-- R229: whether a push appends or sets EVT_OVF depends on the FIFO alone. -/
theorem BdAgree.pushEvent (b : Button) (l : Line) : BdAgree F S L P (s.pushEvent b l) (u.pushEvent b l) where
  cfg := by rw [State.pushEvent_cfg, State.pushEvent_cfg, h.cfg]
  bd := by rw [State.pushEvent_bd, State.pushEvent_bd, h.bd]
  edge m := by rw [State.pushEvent_edge, State.pushEvent_edge, h.edge]
  level m := by
    obtain ⟨_, _, _, _, _, hs⟩ := bdWrites_pushEvent s b l
    obtain ⟨_, _, _, _, _, hu⟩ := bdWrites_pushEvent u b l
    rw [State.level_congr hs, State.level_congr hu, h.level]
  fifo hF := by
    unfold State.pushEvent
    rw [h.fifo hF, h.cfg]
    split_ifs
    · rfl
    · exact h.fifo hF
  status hS hF := by
    unfold State.pushEvent
    rw [h.fifo hF, h.cfg]
    split_ifs
    · exact h.status hS hF
    · rw [State.setStatus_status, State.setStatus_status, h.status hS hF]
  lastSample hL := by rw [State.pushEvent_lastSample, State.pushEvent_lastSample, h.lastSample hL]
  pressDuration hP := by rw [State.pushEvent_pressDuration, State.pushEvent_pressDuration, h.pressDuration hP]

theorem BdAgree.classifySample (x : Option Nat) : BdAgree F S L P (classifySample s x) (classifySample u x) := by
  cases x with
  | none =>
    unfold Machine.classifySample
    rw [h.bd]
    exact (h.setLastSample _).setStatus (f := fun st => { st with noSample := true })
  | some v =>
    simp only [Machine.classifySample, h.bd, h.cfg]
    cases lookupButton s.cfg s.bd.line v (s.cfg.table s.bd.line) with
    | none => exact (h.setLastSample _).setStatus (f := fun st => { st with noMatch := true })
    | some b => exact (h.setLastSample _).pushEvent b s.bd.line

theorem BdAgree.classify : BdAgree F S L P (classify s) (classify u) := by
  unfold Machine.classify
  rw [h.cfg, h.bd]
  exact h.classifySample _

theorem BdAgree.enterHold : BdAgree F S L P (enterHold s) (enterHold u) := by
  unfold Machine.enterHold
  rw [h.bd]
  exact h.setBd _

theorem BdAgree.beginService (l : Line) : BdAgree F S L P (beginService s l) (beginService u l) := by
  unfold Machine.beginService
  rw [h.edge, h.bd, h.cfg]
  exact (h.setEdge l _).setBd _

theorem BdAgree.idleCheck : BdAgree F S L P (idleCheck s) (idleCheck u) := by
  unfold Machine.idleCheck
  rw [show u.edge0 = s.edge0 from h.edge .l0, show u.edge1 = s.edge1 from h.edge .l1]
  split_ifs
  · exact h.beginService .l0
  · exact h.beginService .l1
  · exact h

theorem BdAgree.enterIdle : BdAgree F S L P (enterIdle s) (enterIdle u) := by
  unfold Machine.enterIdle
  rw [h.bd]
  exact (h.setBd _).idleCheck

theorem BdAgree.endHold (timeout : Bool) : BdAgree F S L P (endHold s timeout) (endHold u timeout) := by
  unfold Machine.endHold
  rw [h.bd, h.cfg]
  exact (h.setPressDuration _).setBd _

/-! ### The phases -/

theorem BdAgree.debounceStep : BdAgree F S L P (debounceStep s) (debounceStep u) := by
  unfold Machine.debounceStep
  rw [h.bd, h.level, h.cfg]
  split_ifs
  · exact h.setBd _
  · exact (h.setBd _).enterIdle
  · exact h.setBd _

theorem BdAgree.dischargeStep (next : BdPhase) : BdAgree F S L P (dischargeStep s next) (dischargeStep u next) := by
  unfold Machine.dischargeStep
  rw [h.bd]
  split_ifs
  · exact h.setBd _
  · exact h.setBd _

theorem BdAgree.endMeasure1 : BdAgree F S L P (endMeasure1 s) (endMeasure1 u) := by
  unfold Machine.endMeasure1
  rw [h.bd, h.cfg]
  split_ifs
  · exact h.setBd _
  · exact h.classify.enterHold

theorem BdAgree.measureStep1 : BdAgree F S L P (measureStep1 s) (measureStep1 u) := by
  unfold Machine.measureStep1
  rw [h.bd, h.level, h.cfg]
  cases pollSample s.cfg (s.bd.cnt + 1) (s.level s.bd.line) with
  | none => exact h.setBd _
  | some v => exact (h.setBd _).endMeasure1

theorem BdAgree.measureStep2 : BdAgree F S L P (measureStep2 s) (measureStep2 u) := by
  unfold Machine.measureStep2
  rw [h.bd, h.level, h.cfg]
  cases pollSample s.cfg (s.bd.cnt + 1) (s.level s.bd.line) with
  | none => exact h.setBd _
  | some v => exact (h.setBd _).classify.enterHold

theorem BdAgree.holdStep : BdAgree F S L P (holdStep s) (holdStep u) := by
  unfold Machine.holdStep
  rw [h.bd, h.level, h.cfg]
  split_ifs
  · exact h.endHold false
  · exact h.endHold true
  · exact h.setBd _

theorem BdAgree.finalDischargeStep : BdAgree F S L P (finalDischargeStep s) (finalDischargeStep u) := by
  unfold Machine.finalDischargeStep
  rw [h.bd]
  split_ifs
  · exact (h.setBd _).enterIdle
  · exact h.setBd _

theorem BdAgree.bdPhaseStep : BdAgree F S L P (bdPhaseStep s) (bdPhaseStep u) := by
  unfold Machine.bdPhaseStep
  rw [h.bd]
  cases s.bd.phase with
  | idle => exact h.idleCheck
  | debounce => exact h.debounceStep
  | dis1 => exact h.dischargeStep .meas1
  | meas1 => exact h.measureStep1
  | dis2 => exact h.dischargeStep .meas2
  | meas2 => exact h.measureStep2
  | hold => exact h.holdStep
  | disf => exact h.finalDischargeStep

theorem BdAgree.bdEmit : BdAgree F S L P (bdEmit s) (bdEmit u) := by
  unfold Machine.bdEmit
  rw [h.bd, h.cfg, show u.edge0 = s.edge0 from h.edge .l0, show u.edge1 = s.edge1 from h.edge .l1]
  exact (h.setBd _).setEdges _ _

theorem BdAgree.bdStep : BdAgree F S L P (bdStep s) (bdStep u) := h.bdPhaseStep.bdEmit

end

end Sys2Proof.Machine
end

section
/-! PROOFS. O57: the units' steps as functions of what they read (R315, R318). -/

namespace Sys2Proof.Machine

/-- MX, SR and PW read the Clock State and their own state. -/
theorem tick_displays_congr {s₁ s₂ t₁ t₂ : State} (h₁ : tick s₁ = .next t₁) (h₂ : tick s₂ = .next t₂)
    (hc : s₁.cfg = s₂.cfg) (hk : s₁.clock = s₂.clock) :
    (s₁.mx = s₂.mx → t₁.mx = t₂.mx) ∧ (s₁.sr = s₂.sr → t₁.sr = t₂.sr) ∧ (s₁.pw = s₂.pw → t₁.pw = t₂.pw) := by
  obtain ⟨m₁, r₁, p₁, hm₁, hr₁, hp₁, rfl⟩ := tick_next h₁
  obtain ⟨m₂, r₂, p₂, hm₂, hr₂, hp₂, rfl⟩ := tick_next h₂
  rw [hc, hk] at hm₁ hr₁ hp₁
  simp only [finishTick_mx, finishTick_sr, finishTick_pw]
  refine ⟨fun hu => ?_, fun hu => ?_, fun hu => ?_⟩
  · rw [hu] at hm₁
    exact Option.some.inj (hm₁.symm.trans hm₂)
  · rw [hu] at hr₁
    exact Option.some.inj (hr₁.symm.trans hr₂)
  · rw [hu] at hp₁
    exact Option.some.inj (hp₁.symm.trans hp₂)

/-- What BD steps on agrees in two such states: the detectors give the same edges from the same levels. -/
theorem bdAgree_beforeBd {s u : State} (hc : u.cfg = s.cfg) (hbd : u.bd = s.bd) (he : ∀ l, u.edge l = s.edge l)
    (hl : ∀ l, u.level l = s.level l) (m m' : Mx) (r r' : Sr) (p p' : Pw) :
    BdAgree (u.fifo = s.fifo) (u.status = s.status) (u.lastSample = s.lastSample) (u.pressDuration = s.pressDuration)
      (beforeBd s m r p) (beforeBd u m' r' p') where
  cfg := hc
  bd := hbd
  edge l := by rw [(bdView_beforeBd s m r p).edge, (bdView_beforeBd u m' r' p').edge, edgeDetect_edge, edgeDetect_edge, he, hl]
  level := hl
  fifo h := h
  status h _ := h
  lastSample h := h
  pressDuration h := h

/-- Settles O57: each unit's step is a function of what the unit reads. -/
theorem unitsDoNotInterfere : Obligations.UnitsDoNotInterfere := by
  unfold Obligations.UnitsDoNotInterfere
  intro s₁ s₂ t₁ t₂ h₁ h₂ hc
  refine ⟨fun hk => (tick_displays_congr h₁ h₂ hc hk).1, fun hk => (tick_displays_congr h₁ h₂ hc hk).2.1,
    fun hk => (tick_displays_congr h₁ h₂ hc hk).2.2, fun hbd he0 he1 hl => ?_⟩
  obtain ⟨m₁, r₁, p₁, -, -, -, rfl⟩ := tick_next h₁
  obtain ⟨m₂, r₂, p₂, -, -, -, rfl⟩ := tick_next h₂
  have he (l : Line) : s₁.edge l = s₂.edge l := by
    cases l with
    | l0 => exact he0
    | l1 => exact he1
  have h := (bdAgree_beforeBd hc hbd he hl m₂ m₁ r₂ r₁ p₂ p₁).bdStep
  exact ⟨h.bd, h.edge .l0, h.edge .l1, h.fifo, h.status, h.lastSample, h.pressDuration⟩

end Sys2Proof.Machine
end

section
/-! PROOFS. O56: the units' steps commute (R67 step (3), log 15). -/

namespace Sys2Proof.Machine

/-! ### BD and the display units -/

/-- The display units' states replaced. -/
def State.setDisplays (s : State) (m : Mx) (r : Sr) (p : Pw) : State := ((s.setMx m).setSr r).setPw p

/-- Nothing BD reads is part of a display unit. -/
theorem bdAgree_setDisplays (s : State) (m : Mx) (r : Sr) (p : Pw) : BdAgree True True True True s (s.setDisplays m r p) where
  cfg := rfl
  bd := rfl
  edge _ := rfl
  level _ := rfl
  fifo _ := rfl
  status _ _ := rfl
  lastSample _ := rfl
  pressDuration _ := rfl

/-- States that agree on everything BD reads or writes, and on everything else, are equal. -/
theorem BdAgree.eq {s u : State} (h : BdAgree True True True True s u) (hk : u.clock = s.clock) (hm : u.mx = s.mx)
    (hr : u.sr = s.sr) (hp : u.pw = s.pw) (hw : u.world = s.world) : u = s := by
  have h0 : u.edge0 = s.edge0 := h.edge .l0
  have h1 : u.edge1 = s.edge1 := h.edge .l1
  obtain ⟨hc, hbd, -, -, hf, hst, hls, hpd⟩ := h
  cases s
  cases u
  exact State.mk.injEq .. ▸ ⟨hc, hk, hst trivial trivial, hls trivial, hpd trivial, hf trivial, hm, hr, hp, hbd, h0, h1, hw⟩

theorem bdStep_setDisplays (s : State) (m : Mx) (r : Sr) (p : Pw) :
    bdStep (s.setDisplays m r p) = (bdStep s).setDisplays m r p := by
  obtain ⟨-, hk, -, -, -, hw⟩ := bdWrites_bdStep s
  obtain ⟨-, hk', hm', hr', hp', hw'⟩ := bdWrites_bdStep (s.setDisplays m r p)
  have h : BdAgree True True True True ((bdStep s).setDisplays m r p) (bdStep (s.setDisplays m r p)) :=
    { (bdAgree_setDisplays s m r p).bdStep with }
  exact h.eq (hk'.trans hk.symm) hm' hr' hp' (hw'.trans hw.symm)

theorem bdStep_setMx (s : State) (m : Mx) : bdStep (s.setMx m) = (bdStep s).setMx m := by
  obtain ⟨-, -, -, hr, hp, -⟩ := bdWrites_bdStep s
  calc bdStep (s.setMx m) = (bdStep s).setDisplays m s.sr s.pw := bdStep_setDisplays s m s.sr s.pw
    _ = (bdStep s).setMx m := by rw [← hr, ← hp]; rfl

theorem bdStep_setSr (s : State) (r : Sr) : bdStep (s.setSr r) = (bdStep s).setSr r := by
  obtain ⟨-, -, hm, -, hp, -⟩ := bdWrites_bdStep s
  calc bdStep (s.setSr r) = (bdStep s).setDisplays s.mx r s.pw := bdStep_setDisplays s s.mx r s.pw
    _ = (bdStep s).setSr r := by rw [← hm, ← hp]; rfl

theorem bdStep_setPw (s : State) (p : Pw) : bdStep (s.setPw p) = (bdStep s).setPw p := by
  obtain ⟨-, -, hm, hr, -, -⟩ := bdWrites_bdStep s
  calc bdStep (s.setPw p) = (bdStep s).setDisplays s.mx s.sr p := bdStep_setDisplays s s.mx s.sr p
    _ = (bdStep s).setPw p := by rw [← hm, ← hr]; rfl

/-! ### The units commute in pairs -/

/-- u after v gives what v after u gives. -/
def UnitsCommute (u v : State → Option State) : Prop := ∀ s, (u s).bind v = (v s).bind u

theorem unitsCommute_mx_sr : UnitsCommute unitMx unitSr := fun s => by
  cases hm : mxStep s.cfg s.clock s.mx <;> cases hr : srStep s.cfg s.clock s.sr <;> simp [unitMx, unitSr, hm, hr]
  rfl

theorem unitsCommute_mx_pw : UnitsCommute unitMx unitPw := fun s => by
  cases hm : mxStep s.cfg s.clock s.mx <;> cases hp : pwStep s.cfg s.clock s.pw <;> simp [unitMx, unitPw, hm, hp]
  rfl

theorem unitsCommute_sr_pw : UnitsCommute unitSr unitPw := fun s => by
  cases hr : srStep s.cfg s.clock s.sr <;> cases hp : pwStep s.cfg s.clock s.pw <;> simp [unitSr, unitPw, hr, hp]
  rfl

theorem unitsCommute_mx_bd : UnitsCommute unitMx unitBd := fun s => by
  obtain ⟨hc, hk, hm, -, -, -⟩ := bdWrites_bdStep s
  simp only [unitMx, unitBd, Option.bind_some, hc, hk, hm]
  cases mxStep s.cfg s.clock s.mx with
  | none => rfl
  | some m => exact congrArg some (bdStep_setMx s m)

theorem unitsCommute_sr_bd : UnitsCommute unitSr unitBd := fun s => by
  obtain ⟨hc, hk, -, hr, -, -⟩ := bdWrites_bdStep s
  simp only [unitSr, unitBd, Option.bind_some, hc, hk, hr]
  cases srStep s.cfg s.clock s.sr with
  | none => rfl
  | some r => exact congrArg some (bdStep_setSr s r)

theorem unitsCommute_pw_bd : UnitsCommute unitPw unitBd := fun s => by
  obtain ⟨hc, hk, -, -, hp, -⟩ := bdWrites_bdStep s
  simp only [unitPw, unitBd, Option.bind_some, hc, hk, hp]
  cases pwStep s.cfg s.clock s.pw with
  | none => rfl
  | some p => exact congrArg some (bdStep_setPw s p)

theorem unitsCommute_units : ∀ u ∈ [unitMx, unitSr, unitPw, unitBd], ∀ v ∈ [unitMx, unitSr, unitPw, unitBd], UnitsCommute u v := by
  have hpairs : [unitMx, unitSr, unitPw, unitBd].Pairwise UnitsCommute := by
    simp [unitsCommute_mx_sr, unitsCommute_mx_pw, unitsCommute_sr_pw, unitsCommute_mx_bd, unitsCommute_sr_bd,
      unitsCommute_pw_bd]
  have hsymm : Std.Symm UnitsCommute := ⟨fun _ _ h s => (h s).symm⟩
  exact fun u hu v hv => hpairs.forall_of_forall (fun _ _ _ => rfl) hu hv

/-! ### Any order -/

theorem runUnits_cons (u : State → Option State) (us : List (State → Option State)) (s : State) :
    runUnits (u :: us) s = (u s).bind (runUnits us) := by
  simp only [runUnits]
  cases u s <;> rfl

/-- Units that commute in pairs give the same state in every order. -/
theorem runUnits_perm {us vs : List (State → Option State)} (h : us.Perm vs) :
    (∀ u ∈ us, ∀ v ∈ us, UnitsCommute u v) → runUnits us = runUnits vs := by
  induction h with
  | nil => exact fun _ => rfl
  | cons u _ ih =>
    intro hcomm
    have htail := ih fun v hv w hw => hcomm v (.tail u hv) w (.tail u hw)
    funext s
    rw [runUnits_cons, runUnits_cons, htail]
  | swap u v us =>
    intro hcomm
    have huv : UnitsCommute v u := hcomm v (.head _) u (.tail v (.head us))
    have hfirst (a b : State → Option State) (s : State) : runUnits (a :: b :: us) s = ((a s).bind b).bind (runUnits us) := by
      rw [runUnits_cons, Option.bind_assoc, funext (runUnits_cons b us)]
    funext s
    rw [hfirst, hfirst, huv s]
  | trans h₁ _ ih₁ ih₂ =>
    intro hcomm
    exact (ih₁ hcomm).trans (ih₂ fun u hu v hv => hcomm u (h₁.mem_iff.mpr hu) v (h₁.mem_iff.mpr hv))

/-- MX, SR, PW and BD one after another. -/
theorem runUnits_units_iff {s u : State} : runUnits [unitMx, unitSr, unitPw, unitBd] s = some u ↔
    ∃ m r p, mxStep s.cfg s.clock s.mx = some m ∧ srStep s.cfg s.clock s.sr = some r ∧
      pwStep s.cfg s.clock s.pw = some p ∧ u = bdStep (s.setDisplays m r p) := by
  rw [runUnits_cons, Option.bind_eq_some_iff]
  constructor
  · intro h
    simp only [runUnits_cons, Option.bind_eq_some_iff, unitMx, unitSr, unitPw, unitBd, Option.map_eq_some_iff] at h
    obtain ⟨_, ⟨m, hm, rfl⟩, _, ⟨r, hr, rfl⟩, _, ⟨p, hp, rfl⟩, _, ⟨⟩, ⟨⟩⟩ := h
    exact ⟨m, r, p, hm, hr, hp, rfl⟩
  · rintro ⟨m, r, p, hm, hr, hp, rfl⟩
    refine ⟨s.setMx m, Option.map_eq_some_iff.mpr ⟨m, hm, rfl⟩, ?_⟩
    have hsr : unitSr (s.setMx m) = some ((s.setMx m).setSr r) := Option.map_eq_some_iff.mpr ⟨r, hr, rfl⟩
    have hpw : unitPw ((s.setMx m).setSr r) = some (s.setDisplays m r p) := Option.map_eq_some_iff.mpr ⟨p, hp, rfl⟩
    rw [runUnits_cons, hsr, Option.bind_some, runUnits_cons, hpw]
    rfl

/-- The tick is the edge detectors, then the units in the order of R67, then the next boundary. -/
theorem tick_iff_runUnits {s t : State} : tick s = .next t ↔
    ∃ u, runUnits [unitMx, unitSr, unitPw, unitBd] (edgeDetect s) = some u ∧ t = u.nextBoundary := by
  constructor
  · intro h
    obtain ⟨m, r, p, hm, hr, hp, rfl⟩ := tick_next h
    exact ⟨_, runUnits_units_iff.mpr ⟨m, r, p, hm, hr, hp, rfl⟩, rfl⟩
  · rintro ⟨u, hu, rfl⟩
    obtain ⟨m, r, p, hm, hr, hp, rfl⟩ := runUnits_units_iff.mp hu
    exact tick_of_steps hm hr hp

/-- Settles O56: the units commute in pairs, so every order gives what the tick's own order gives. -/
theorem unitOrderDoesNotMatter : Obligations.UnitOrderDoesNotMatter := by
  unfold Obligations.UnitOrderDoesNotMatter
  intro s t us hus
  have hperm := List.mem_permutations.mp hus
  rw [runUnits_perm hperm fun u hu v hv => unitsCommute_units u (hperm.mem_iff.mp hu) v (hperm.mem_iff.mp hv)]
  exact tick_iff_runUnits

end Sys2Proof.Machine
end
